-- ==== Sys2Proof/Word.lean ====
section
/-! DEFINITION. The machine word and the 3-bit field number of the HD-6120 (rules R5, R43). The bit numbering of
the data sheet (bit 0 is the most significant bit, R7) is in Machine/Bits.lean, where a repair can reach it. -/

namespace Sys2Proof

/-- One 12-bit word: data, instruction, or address within a field (R5). -/
abbrev Word := BitVec 12

/-- A 3-bit memory field number, 0 to 7 (R5). -/
abbrev Field := BitVec 3

end Sys2Proof
end

