-- ==== Sys2Proof/Machine/Bits.lean ====
section
/-! DEFINITION. The bit notation of rule R7: bit 0 is the most significant bit of a 12-bit word, bit 11 the least.
Here, and not in Word.lean, so that a repair can mend it. -/

namespace Sys2Proof

/-- `w<i>`: bit i of a word in the data sheet's numbering, bit 0 most significant (R7). -/
def bit (w : Word) (i : Nat) : Bool :=
  w.getLsbD (11 - i)

/-- `w<a:a+2>`: three bits from bit a down, an octal digit when a is 0, 3, 6 or 9 (R7). -/
def bits3 (w : Word) (a : Nat) : Field :=
  w.extractLsb' (9 - a) 3

/-- `w<3:8>`: the device selection code of an IOT word (R57). -/
def deviceCode (w : Word) : BitVec 6 :=
  w.extractLsb' 3 6

/-- `w<5:11>`: the page address of a memory reference word (R53). -/
def pageAddress (w : Word) : BitVec 7 :=
  w.extractLsb' 0 7

/-- `zext_12` of one bit: the bit in the least significant place of a word (R8). -/
def bitWord (b : Bool) : Word :=
  (BitVec.ofBool b).setWidth 12

/-- `zext_12(v) << 3`: a field number placed in bits 6 to 8 of a word (R175). -/
def fieldAt6 (f : Field) : Word :=
  f.setWidth 12 <<< 3

/-- `zext_12(v)`: a field number placed in bits 9 to 11 of a word (R177). -/
def fieldAt9 (f : Field) : Word :=
  f.setWidth 12

end Sys2Proof
end

