-- ==== Sys2Proof/Syntax.lean ====
section
/-! DEFINITION. The syntax of the HD-6120's instructions: one constructor for each row of spec/opcode_table.json, in the
table's order (rule R58). A word that matches several rows is the row with the most fixed bits, so a generic operate
constructor stands for the words its listing does not name (WellFormed.lean). -/

namespace Sys2Proof

/-- The instructions of the opcode table. Operand names are the table's field names. -/
inductive Instr where
  -- Memory reference instructions (R67 to R72): `indirect` is bit 3, `currentPage` bit 4, `page` bits 5 to 11.
  /-- AND, 0000 under mask 7000 (R67). -/
  | and (indirect currentPage : Bool) (page : BitVec 7)
  /-- TAD, 1000 under mask 7000 (R68). -/
  | tad (indirect currentPage : Bool) (page : BitVec 7)
  /-- ISZ, 2000 under mask 7000 (R69). -/
  | isz (indirect currentPage : Bool) (page : BitVec 7)
  /-- DCA, 3000 under mask 7000 (R70). -/
  | dca (indirect currentPage : Bool) (page : BitVec 7)
  /-- JMS, 4000 under mask 7000 (R71). -/
  | jms (indirect currentPage : Bool) (page : BitVec 7)
  /-- JMP, 5000 under mask 7000 (R72). -/
  | jmp (indirect currentPage : Bool) (page : BitVec 7)
  -- Group 1 operate words (R73 to R97). `opr1` is every word the listing does not name.
  /-- OPR1, 7000 under mask 7400 (R73). -/
  | opr1 (cla cll cma cml : Bool) (rot : Field) (iac : Bool)
  /-- NOP, 7000 (R75). -/
  | nop1
  /-- IAC, 7001 (R76). -/
  | iac
  /-- BSW, 7002 (R77). -/
  | bsw
  /-- RAL, 7004 (R78). -/
  | ral
  /-- RTL, 7006 (R79). -/
  | rtl
  /-- RAR, 7010 (R80). -/
  | rar
  /-- RTR, 7012 (R81). -/
  | rtr
  /-- R3L, 7014 (R82). -/
  | r3l
  /-- CML, 7020 (R83). -/
  | cml
  /-- CMA, 7040 (R84). -/
  | cma
  /-- CIA, 7041 (R85). -/
  | cia
  /-- CLL, 7100 (R86). -/
  | cll
  /-- CLL RAL, 7104 (R87). -/
  | cllRal
  /-- CLL RTL, 7106 (R88). -/
  | cllRtl
  /-- CLL RAR, 7110 (R89). -/
  | cllRar
  /-- CLL RTR, 7112 (R90). -/
  | cllRtr
  /-- STL, 7120 (R91). -/
  | stl
  /-- CLA, 7200 (R92). -/
  | cla1
  /-- CLA IAC, 7201 (R93). -/
  | claIac
  /-- GLK, 7204 (R94). -/
  | glk
  /-- STA, 7240 (R95). -/
  | sta
  /-- CLA CLL, 7300 (R96). -/
  | claCll
  -- Group 2 operate words (R98 to R124). `opr2` is every word the listing does not name.
  /-- OPR2, 7400 under mask 7401 (R98). -/
  | opr2 (cla sma sza snl sense osr hlt : Bool)
  /-- NOP, 7400 (R100). -/
  | nop2
  /-- HLT, 7402 (R101). -/
  | hlt
  /-- OSR, 7404 (R102). -/
  | osr
  /-- SKP, 7410 (R103). -/
  | skp
  /-- SNL, 7420 (R104). -/
  | snl
  /-- SZL, 7430 (R105). -/
  | szl
  /-- SZA, 7440 (R106). -/
  | sza
  /-- SNA, 7450 (R107). -/
  | sna
  /-- SZA SNL, 7460 (R108). -/
  | szaSnl
  /-- SNA SZL, 7470 (R109). -/
  | snaSzl
  /-- SMA, 7500 (R110). -/
  | sma
  /-- SPA, 7510 (R111). -/
  | spa
  /-- SMA SNL, 7520 (R112). -/
  | smaSnl
  /-- SPA SZL, 7530 (R113). -/
  | spaSzl
  /-- SMA SZA, 7540 (R114). -/
  | smaSza
  /-- SPA SNA, 7550 (R115). -/
  | spaSna
  /-- SMA SZA SNL, 7560 (R116). -/
  | smaSzaSnl
  /-- SPA SNA SZL, 7570 (R117). -/
  | spaSnaSzl
  /-- CLA, 7600 (R118). -/
  | cla2
  /-- LAS, 7604 (R119). -/
  | las
  /-- SZA CLA, 7640 (R120). -/
  | szaCla
  /-- SNA CLA, 7650 (R121). -/
  | snaCla
  /-- SMA CLA, 7700 (R122). -/
  | smaCla
  /-- SPA CLA, 7710 (R123). -/
  | spaCla
  -- Group 3 operate words (R125 to R134). `opr3` is every word the listing does not name.
  /-- OPR3, 7401 under mask 7401 (R125). -/
  | opr3 (cla mqa u6 mql : Bool) (u8to10 : Field)
  /-- NOP, 7401 (R126). -/
  | nop3
  /-- MQL, 7421 (R127). -/
  | mql
  /-- MQA, 7501 (R128). -/
  | mqa
  /-- SWP, 7521 (R129). -/
  | swp
  /-- CLA, 7601 (R130). -/
  | cla3
  /-- CAM, 7621 (R131). -/
  | cam
  /-- ACL, 7701 (R132). -/
  | acl
  /-- CLA SWP, 7721 (R133). -/
  | claSwp
  -- Stack operation instructions (R136 to R147).
  /-- PPC1, 6205 (R136). -/
  | ppc1
  /-- PPC2, 6245 (R137). -/
  | ppc2
  /-- PAC1, 6215 (R138). -/
  | pac1
  /-- PAC2, 6255 (R139). -/
  | pac2
  /-- RTN1, 6225 (R140). -/
  | rtn1
  /-- RTN2, 6265 (R141). -/
  | rtn2
  /-- POP1, 6235 (R142). -/
  | pop1
  /-- POP2, 6275 (R143). -/
  | pop2
  /-- RSP1, 6207 (R144). -/
  | rsp1
  /-- RSP2, 6227 (R145). -/
  | rsp2
  /-- LSP1, 6217 (R146). -/
  | lsp1
  /-- LSP2, 6237 (R147). -/
  | lsp2
  -- Internal control instructions, both modes (R150 to R156).
  /-- ION, 6001 (R150). -/
  | ion
  /-- IOF, 6002 (R151). -/
  | iof
  /-- RTF, 6005 (R152). -/
  | rtf
  /-- SGT, 6006 (R153). -/
  | sgt
  /-- CAF, 6007 (R154). -/
  | caf
  /-- WSR, 6246 (R155). -/
  | wsr
  /-- GCF, 6256 (R156). -/
  | gcf
  -- Main memory control instructions (R158 to R164).
  /-- SKON, 6000 (R158). -/
  | skon
  /-- SRQ, 6003 (R159). -/
  | srq
  /-- GTF, 6004 (R160). -/
  | gtf
  /-- PR0, 6206 (R161). -/
  | pr0
  /-- PR1, 6216 (R162). -/
  | pr1
  /-- PR2, 6226 (R163). -/
  | pr2
  /-- PR3, 6236 (R164). -/
  | pr3
  -- Panel mode control instructions (R166 to R170).
  /-- PRS, 6000 (R166). -/
  | prs
  /-- PGO, 6003 (R167). -/
  | pgo
  /-- PEX, 6004 (R168). -/
  | pex
  /-- CPD, 6266 (R169). -/
  | cpd
  /-- SPD, 6276 (R170). -/
  | spd
  -- Memory extension instructions (R172 to R178): `x` is bits 6 to 8.
  /-- CDF, 6201 under mask 7707 (R172). -/
  | cdf (x : Field)
  /-- CIF, 6202 under mask 7707 (R173). -/
  | cif (x : Field)
  /-- CDF CIF, 6203 under mask 7707 (R174). -/
  | cdfCif (x : Field)
  /-- RDF, 6214 (R175). -/
  | rdf
  /-- RIF, 6224 (R176). -/
  | rif
  /-- RIB, 6234 (R177). -/
  | rib
  /-- RMF, 6244 (R178). -/
  | rmf
  -- External input/output transfer (R180): device code 01 to 17 or 30 to 77.
  /-- IOT, 6000 under mask 7000 (R180). -/
  | iot (device : BitVec 6) (operation : Field)
  -- The 16 internal IOT words that no listing defines (R184).
  /-- reserved word 6200, 6200 (R184). -/
  | reserved6200
  /-- reserved word 6210, 6210 (R184). -/
  | reserved6210
  /-- reserved word 6220, 6220 (R184). -/
  | reserved6220
  /-- reserved word 6230, 6230 (R184). -/
  | reserved6230
  /-- reserved word 6240, 6240 (R184). -/
  | reserved6240
  /-- reserved word 6250, 6250 (R184). -/
  | reserved6250
  /-- reserved word 6260, 6260 (R184). -/
  | reserved6260
  /-- reserved word 6270, 6270 (R184). -/
  | reserved6270
  /-- reserved word 6204, 6204 (R184). -/
  | reserved6204
  /-- reserved word 6254, 6254 (R184). -/
  | reserved6254
  /-- reserved word 6264, 6264 (R184). -/
  | reserved6264
  /-- reserved word 6274, 6274 (R184). -/
  | reserved6274
  /-- reserved word 6247, 6247 (R184). -/
  | reserved6247
  /-- reserved word 6257, 6257 (R184). -/
  | reserved6257
  /-- reserved word 6267, 6267 (R184). -/
  | reserved6267
  /-- reserved word 6277, 6277 (R184). -/
  | reserved6277
  deriving DecidableEq, Repr

end Sys2Proof
end

