-- ==== Sys2Proof/WellFormed.lean ====
section
/-! DEFINITION. Which instruction terms stand for a word: a generic operate term must not spell a word that the listing
gives a constructor of its own (rule R58: the row with the most fixed bits wins), and an external IOT must not name an
internal device code (R179). -/

namespace Sys2Proof

/-- The word of a group 1 template (R54): 1110, CLA, CLL, CMA, CML, R1 R2 R3, IAC. -/
def group1Word (cla cll cma cml : Bool) (rot : Field) (iac : Bool) : Word :=
  0b1110#4 ++ BitVec.ofBool cla ++ BitVec.ofBool cll ++ BitVec.ofBool cma ++ BitVec.ofBool cml ++ rot ++
    BitVec.ofBool iac

/-- The word of a group 2 template (R55): 1111, CLA, the three tests, the sense, OSR, HLT, 0. -/
def group2Word (cla sma sza snl sense osr hlt : Bool) : Word :=
  0b1111#4 ++ BitVec.ofBool cla ++ BitVec.ofBool sma ++ BitVec.ofBool sza ++ BitVec.ofBool snl ++
    BitVec.ofBool sense ++ BitVec.ofBool osr ++ BitVec.ofBool hlt ++ 0b0#1

/-- The word of a group 3 template (R56): 1111, CLA, MQA, bit 6, MQL, bits 8 to 10, 1. -/
def group3Word (cla mqa u6 mql : Bool) (u8to10 : Field) : Word :=
  0b1111#4 ++ BitVec.ofBool cla ++ BitVec.ofBool mqa ++ BitVec.ofBool u6 ++ BitVec.ofBool mql ++ u8to10 ++ 0b1#1

/-- The group 1 words the listing names (R75 to R96). -/
def namedGroup1 : List Word :=
  [0o7000, 0o7001, 0o7002, 0o7004, 0o7006, 0o7010, 0o7012, 0o7014,
   0o7020, 0o7040, 0o7041, 0o7100, 0o7104, 0o7106, 0o7110, 0o7112,
   0o7120, 0o7200, 0o7201, 0o7204, 0o7240, 0o7300]

/-- The group 2 words the listing names (R100 to R123). -/
def namedGroup2 : List Word :=
  [0o7400, 0o7402, 0o7404, 0o7410, 0o7420, 0o7430, 0o7440, 0o7450,
   0o7460, 0o7470, 0o7500, 0o7510, 0o7520, 0o7530, 0o7540, 0o7550,
   0o7560, 0o7570, 0o7600, 0o7604, 0o7640, 0o7650, 0o7700, 0o7710]

/-- The group 3 words the listing names (R126 to R133). -/
def namedGroup3 : List Word :=
  [0o7401, 0o7421, 0o7501, 0o7521, 0o7601, 0o7621, 0o7701, 0o7721]

/-- Device codes 00 and 20 to 27 are internal (R179). -/
def internalDevice (device : BitVec 6) : Bool :=
  device == 0 || (0o20 ≤ device && device ≤ 0o27)

/-- A term that stands for exactly one word and is what decoding that word gives. -/
def Instr.wellFormed : Instr → Bool
  | .opr1 a b c d r i => !namedGroup1.contains (group1Word a b c d r i)
  | .opr2 a b c d e f g => !namedGroup2.contains (group2Word a b c d e f g)
  | .opr3 a b c d e => !namedGroup3.contains (group3Word a b c d e)
  | .iot device _ => !internalDevice device
  | _ => true

/-- The mode in which the word of the term means the term (R59): three words mean one instruction in main mode and
another in panel mode (`panel` is CTRLFF). -/
def Instr.inMode (panel : Bool) : Instr → Bool
  | .skon | .srq | .gtf => !panel
  | .prs | .pgo | .pex => panel
  | _ => true

end Sys2Proof
end

