-- ==== Sys2Proof/Decode.lean ====
section
/-! DEFINITION. Decoding and encoding of the 12-bit instruction word (rules R52 to R61). Every one of the 4096 words
decodes; the only thing outside the word that decides is CTRLFF, for the words of rule R59. What is no 12-bit word is
rejected by name. -/

namespace Sys2Proof

/-- Why `decode` gives no instruction. -/
inductive DecodeError where
  /-- The number has a bit above the twelve of a word. Raised by `decode`; safe: the machine's memory holds 12-bit
  words only, so no step meets it. -/
  | notTwelveBits
  deriving DecidableEq, Repr

/-- Group 1 operate words (R54, R58): the listed words, and every other combination. -/
def decodeGroup1 (w : Word) : Instr :=
  match w.toNat with
  | 0o7000 => .nop1
  | 0o7001 => .iac
  | 0o7002 => .bsw
  | 0o7004 => .ral
  | 0o7006 => .rtl
  | 0o7010 => .rar
  | 0o7012 => .rtr
  | 0o7014 => .r3l
  | 0o7020 => .cml
  | 0o7040 => .cma
  | 0o7041 => .cia
  | 0o7100 => .cll
  | 0o7104 => .cllRal
  | 0o7106 => .cllRtl
  | 0o7110 => .cllRar
  | 0o7112 => .cllRtr
  | 0o7120 => .stl
  | 0o7200 => .cla1
  | 0o7201 => .claIac
  | 0o7204 => .glk
  | 0o7240 => .sta
  | 0o7300 => .claCll
  | _ => .opr1 (bit w 4) (bit w 5) (bit w 6) (bit w 7) (bits3 w 8) (bit w 11)

/-- Group 2 operate words (R55, R58): the listed words, and every other combination. -/
def decodeGroup2 (w : Word) : Instr :=
  match w.toNat with
  | 0o7400 => .nop2
  | 0o7402 => .hlt
  | 0o7404 => .osr
  | 0o7410 => .skp
  | 0o7420 => .snl
  | 0o7430 => .szl
  | 0o7440 => .sza
  | 0o7450 => .sna
  | 0o7460 => .szaSnl
  | 0o7470 => .snaSzl
  | 0o7500 => .sma
  | 0o7510 => .spa
  | 0o7520 => .smaSnl
  | 0o7530 => .spaSzl
  | 0o7540 => .smaSza
  | 0o7550 => .spaSna
  | 0o7560 => .smaSzaSnl
  | 0o7570 => .spaSnaSzl
  | 0o7600 => .cla2
  | 0o7604 => .las
  | 0o7640 => .szaCla
  | 0o7650 => .snaCla
  | 0o7700 => .smaCla
  | 0o7710 => .spaCla
  | _ => .opr2 (bit w 4) (bit w 5) (bit w 6) (bit w 7) (bit w 8) (bit w 9) (bit w 10)

/-- Group 3 operate words (R56, R58): the listed words, and every other combination. -/
def decodeGroup3 (w : Word) : Instr :=
  match w.toNat with
  | 0o7401 => .nop3
  | 0o7421 => .mql
  | 0o7501 => .mqa
  | 0o7521 => .swp
  | 0o7601 => .cla3
  | 0o7621 => .cam
  | 0o7701 => .acl
  | 0o7721 => .claSwp
  | _ => .opr3 (bit w 4) (bit w 5) (bit w 6) (bit w 7) (bits3 w 8)

/-- The internal IOT words of device code 00 (R57, R59); `panel` is CTRLFF and `f` the last octal digit. -/
def decodeDevice00 (panel : Bool) (f : Field) : Instr :=
  match f.toNat with
  | 0 => if panel then .prs else .skon
  | 1 => .ion
  | 2 => .iof
  | 3 => if panel then .pgo else .srq
  | 4 => if panel then .pex else .gtf
  | 5 => .rtf
  | 6 => .sgt
  | _ => .caf

/-- The internal IOT words of device codes 20 to 27 (R57, R184); `x` is the third octal digit and `f` the last. -/
def decodeDevice2x (x f : Field) : Instr :=
  match f.toNat with
  | 0 =>
    match x.toNat with
    | 0 => .reserved6200
    | 1 => .reserved6210
    | 2 => .reserved6220
    | 3 => .reserved6230
    | 4 => .reserved6240
    | 5 => .reserved6250
    | 6 => .reserved6260
    | _ => .reserved6270
  | 1 => .cdf x
  | 2 => .cif x
  | 3 => .cdfCif x
  | 4 =>
    match x.toNat with
    | 0 => .reserved6204
    | 1 => .rdf
    | 2 => .rif
    | 3 => .rib
    | 4 => .rmf
    | 5 => .reserved6254
    | 6 => .reserved6264
    | _ => .reserved6274
  | 5 =>
    match x.toNat with
    | 0 => .ppc1
    | 1 => .pac1
    | 2 => .rtn1
    | 3 => .pop1
    | 4 => .ppc2
    | 5 => .pac2
    | 6 => .rtn2
    | _ => .pop2
  | 6 =>
    match x.toNat with
    | 0 => .pr0
    | 1 => .pr1
    | 2 => .pr2
    | 3 => .pr3
    | 4 => .wsr
    | 5 => .gcf
    | 6 => .cpd
    | _ => .spd
  | _ =>
    match x.toNat with
    | 0 => .rsp1
    | 1 => .lsp1
    | 2 => .rsp2
    | 3 => .lsp2
    | 4 => .reserved6247
    | 5 => .reserved6257
    | 6 => .reserved6267
    | _ => .reserved6277

/-- IOT words (R57, R179): internal by device code 00 or 20 to 27, else external. -/
def decodeIot (panel : Bool) (w : Word) : Instr :=
  if deviceCode w = 0 then decodeDevice00 panel (bits3 w 9)
  else if internalDevice (deviceCode w) then decodeDevice2x (bits3 w 6) (bits3 w 9)
  else .iot (deviceCode w) (bits3 w 9)

/-- The instruction a word means (R52); `panel` is CTRLFF at the time the instruction is executed (R59). -/
def decodeWord (panel : Bool) (w : Word) : Instr :=
  match (bits3 w 0).toNat with
  | 0 => .and (bit w 3) (bit w 4) (pageAddress w)
  | 1 => .tad (bit w 3) (bit w 4) (pageAddress w)
  | 2 => .isz (bit w 3) (bit w 4) (pageAddress w)
  | 3 => .dca (bit w 3) (bit w 4) (pageAddress w)
  | 4 => .jms (bit w 3) (bit w 4) (pageAddress w)
  | 5 => .jmp (bit w 3) (bit w 4) (pageAddress w)
  | 6 => decodeIot panel w
  | _ =>
    if bit w 3 = false then decodeGroup1 w
    else if bit w 11 = false then decodeGroup2 w
    else decodeGroup3 w

/-- The word of an instruction, from the same format tables (R53 to R57). -/
def encode : Instr → Word
  | .and i p a => 0b000#3 ++ BitVec.ofBool i ++ BitVec.ofBool p ++ a
  | .tad i p a => 0b001#3 ++ BitVec.ofBool i ++ BitVec.ofBool p ++ a
  | .isz i p a => 0b010#3 ++ BitVec.ofBool i ++ BitVec.ofBool p ++ a
  | .dca i p a => 0b011#3 ++ BitVec.ofBool i ++ BitVec.ofBool p ++ a
  | .jms i p a => 0b100#3 ++ BitVec.ofBool i ++ BitVec.ofBool p ++ a
  | .jmp i p a => 0b101#3 ++ BitVec.ofBool i ++ BitVec.ofBool p ++ a
  | .opr1 cla cll cma cml rot iac => group1Word cla cll cma cml rot iac
  | .nop1 => 0o7000
  | .iac => 0o7001
  | .bsw => 0o7002
  | .ral => 0o7004
  | .rtl => 0o7006
  | .rar => 0o7010
  | .rtr => 0o7012
  | .r3l => 0o7014
  | .cml => 0o7020
  | .cma => 0o7040
  | .cia => 0o7041
  | .cll => 0o7100
  | .cllRal => 0o7104
  | .cllRtl => 0o7106
  | .cllRar => 0o7110
  | .cllRtr => 0o7112
  | .stl => 0o7120
  | .cla1 => 0o7200
  | .claIac => 0o7201
  | .glk => 0o7204
  | .sta => 0o7240
  | .claCll => 0o7300
  | .opr2 cla sma sza snl sense osr hlt => group2Word cla sma sza snl sense osr hlt
  | .nop2 => 0o7400
  | .hlt => 0o7402
  | .osr => 0o7404
  | .skp => 0o7410
  | .snl => 0o7420
  | .szl => 0o7430
  | .sza => 0o7440
  | .sna => 0o7450
  | .szaSnl => 0o7460
  | .snaSzl => 0o7470
  | .sma => 0o7500
  | .spa => 0o7510
  | .smaSnl => 0o7520
  | .spaSzl => 0o7530
  | .smaSza => 0o7540
  | .spaSna => 0o7550
  | .smaSzaSnl => 0o7560
  | .spaSnaSzl => 0o7570
  | .cla2 => 0o7600
  | .las => 0o7604
  | .szaCla => 0o7640
  | .snaCla => 0o7650
  | .smaCla => 0o7700
  | .spaCla => 0o7710
  | .opr3 cla mqa u6 mql u8to10 => group3Word cla mqa u6 mql u8to10
  | .nop3 => 0o7401
  | .mql => 0o7421
  | .mqa => 0o7501
  | .swp => 0o7521
  | .cla3 => 0o7601
  | .cam => 0o7621
  | .acl => 0o7701
  | .claSwp => 0o7721
  | .ppc1 => 0o6205
  | .ppc2 => 0o6245
  | .pac1 => 0o6215
  | .pac2 => 0o6255
  | .rtn1 => 0o6225
  | .rtn2 => 0o6265
  | .pop1 => 0o6235
  | .pop2 => 0o6275
  | .rsp1 => 0o6207
  | .rsp2 => 0o6227
  | .lsp1 => 0o6217
  | .lsp2 => 0o6237
  | .ion => 0o6001
  | .iof => 0o6002
  | .rtf => 0o6005
  | .sgt => 0o6006
  | .caf => 0o6007
  | .wsr => 0o6246
  | .gcf => 0o6256
  | .skon => 0o6000
  | .srq => 0o6003
  | .gtf => 0o6004
  | .pr0 => 0o6206
  | .pr1 => 0o6216
  | .pr2 => 0o6226
  | .pr3 => 0o6236
  | .prs => 0o6000
  | .pgo => 0o6003
  | .pex => 0o6004
  | .cpd => 0o6266
  | .spd => 0o6276
  | .cdf x => 0b110010#6 ++ x ++ 1#3
  | .cif x => 0b110010#6 ++ x ++ 2#3
  | .cdfCif x => 0b110010#6 ++ x ++ 3#3
  | .rdf => 0o6214
  | .rif => 0o6224
  | .rib => 0o6234
  | .rmf => 0o6244
  | .iot device operation => 0b110#3 ++ device ++ operation
  | .reserved6200 => 0o6200
  | .reserved6210 => 0o6210
  | .reserved6220 => 0o6220
  | .reserved6230 => 0o6230
  | .reserved6240 => 0o6240
  | .reserved6250 => 0o6250
  | .reserved6260 => 0o6260
  | .reserved6270 => 0o6270
  | .reserved6204 => 0o6204
  | .reserved6254 => 0o6254
  | .reserved6264 => 0o6264
  | .reserved6274 => 0o6274
  | .reserved6247 => 0o6247
  | .reserved6257 => 0o6257
  | .reserved6267 => 0o6267
  | .reserved6277 => 0o6277

/-- Decoding of a number that should be an instruction word: rejected by name when it has more than twelve bits. -/
def decode (panel : Bool) (n : Nat) : Except DecodeError Instr :=
  if n < 4096 then .ok (decodeWord panel (BitVec.ofNat 12 n)) else .error .notTwelveBits

/-- The instruction the decoder reads, in main mode, from the bits of an opcode-table row. The word is twelve bits; a
row given in whole bytes has four zero bits above it. -/
def decodeTableWord (nbits w : Nat) : Option Instr :=
  if nbits < 12 then none
  else
    match decode false w with
    | .ok i => some i
    | .error _ => none

end Sys2Proof
end

