-- ==== Sys2Proof/Config.lean ====
section
/-! DEFINITION. What is fixed for one machine and not changed by running it: the platform parameters of rule R5 (a
value of type `Platform`, carried by the state so that every statement quantifies over it), and the FREE VALUES,
constants without a body, for what the data sheet leaves open. -/

namespace Sys2Proof

/-- The two memory spaces, selected on the bus by LXMAR and LXPAR (R36). -/
inductive Space where
  | main
  | panel
  deriving DecidableEq, Repr

/-- The address of one word: space, field and offset within the field (R36). -/
structure Addr where
  space : Space
  field : Field
  offset : Word
  deriving DecidableEq, Repr

/-- What stands behind a word address (R46, decision D2): read-write memory, read-only memory, or nothing. -/
inductive MemKind where
  | ram
  | rom
  | absent
  deriving DecidableEq, Repr

/-- A run of word addresses of one field, first to last inclusive, that is not plain RAM (R5, MAIN_FIELDS and
PANEL_FIELDS). -/
structure Region where
  space : Space
  field : Field
  first : Word
  last : Word
  kind : MemKind
  deriving DecidableEq, Repr

/-- The platform parameters of rule R5. They are data of the state and no step changes them. -/
structure Platform where
  /-- STRTUP, pin 28: true when it is tied low, so that a reset starts in panel memory (R213). -/
  strtupLow : Bool
  /-- MAIN_FIELDS and PANEL_FIELDS: the words that are not RAM; a word under no region is RAM (decision D2). -/
  regions : List Region
  /-- JMS_STORE_AFTER_TRANSFER (R71, decision D5). -/
  jmsStoreAfterTransfer : Bool
  /-- RTN_MAIN_STACK_ONLY_AFTER_PEX (R140, decision D6). -/
  rtnMainStackOnlyAfterPex : Bool
  /-- Whether the priority network is consulted again between an interrupt grant and the first instruction of the
  routine (decision D14; the other order of U9 is the value false). -/
  consultAfterGrant : Bool
  deriving DecidableEq, Repr

/-- What an external device answers to one IOT (R180): the levels of SKIP, C0 and C1 during WRITE, and the word it
drives if a read follows. -/
structure DevAnswer where
  skipLow : Bool
  c0Low : Bool
  c1Low : Bool
  data : Word
  deriving DecidableEq, Repr, Inhabited

/-- FREE VALUE. AC after the rotate step of a "Do Not Use" group 1 word (R74, U1); log entry 11. -/
opaque Config.rotateAc : Nat → Word

/-- FREE VALUE. L after the rotate step of a "Do Not Use" group 1 word (R74, U1); log entry 11. -/
opaque Config.rotateLink : Nat → Bool

/-- FREE VALUE. TEMP after the execution of an instruction (R16); log entry 24. -/
opaque Config.temp : Nat → Word

/-- FREE VALUE. The word that an unacknowledged write was storing, after the RESET that ends the write (U7, D18); log
entry 16. -/
opaque Config.cutWord : Nat → Word

/-- FREE VALUE. AC after one of the 16 internal IOT words without a definition (R184, D3); log entry 12. -/
opaque Config.reservedAc : Nat → Word

/-- FREE VALUE. L and the internal flags after one of the 16 internal IOT words without a definition (R184, D3); log
entry 12. -/
opaque Config.reservedFlags : Nat → BitVec 13

/-- FREE VALUE. What the external device answers to the IOT word `w`, given DF and AC, when the state lists no
scripted answer (R180, U10); log entry 9. -/
opaque Config.deviceAnswer : Nat → Word → Field → Word → DevAnswer

/-- FREE VALUE. The word the switch-register device selected by DF drives when the state lists no scripted word
(R102, U10); log entry 9. -/
opaque Config.switchWord : Nat → Field → Word

/-- FREE VALUE. What a read of an absent word returns, fixed by the platform for each address (U6, D2); log
entry 7. -/
opaque Config.absentWord : Addr → Word

end Sys2Proof
end

