-- ==== Sys2Proof/Machine/State.lean ====
section
/-! DEFINITION. The state of the machine as plain data: every register, flag and memory word the spec names (rules R10
to R36), the input pins, and the model's own record of the environment (decision D1: what the outside world will do
is data the step reads, what the processor sends out is data the step writes). -/

namespace Sys2Proof.Machine

/-- One listed memory word: the number of its address (`Addr.key`) and its contents. -/
abbrev WordCell := Nat × Word

/-- Both memory spaces as one list of words, in the canonical form `Memory.wf`. -/
abbrev Memory := List WordCell

/-- What a memory word that nothing has written reads as (MEM_INIT, U5; decision D2's default). DESIGN CHOICE, log
entry 5. -/
def Memory.blank : Word := 0

/-- The canonical form: addresses strictly rising, below 2^16, and no entry equal to what an unlisted word reads
as. -/
def Memory.wf (m : Memory) : Bool :=
  (m.map Prod.fst).Pairwise (· < ·) && m.all (fun c => c.1 < 65536 && c.2 != Memory.blank)

/-- The input pins that act between instructions (R188, D1). STRTUP is tied, so it is a platform parameter; ACK acts
inside bus operations, so each operation has its own answer (`Ack`). -/
inductive Pin where
  | reset
  | dmareq
  | runHlt
  | cpreq
  | intreq
  deriving DecidableEq, Repr

/-- A change of one input pin's level. -/
structure PinMove where
  pin : Pin
  low : Bool
  deriving DecidableEq, Repr

/-- One word moved by the DMA device while it holds the bus (R50). -/
inductive DmaTransfer where
  | read (a : Addr)
  | write (a : Addr) (v : Word)
  deriving DecidableEq, Repr

/-- How a memory or device acknowledges one bus operation (R46, R51). -/
inductive Ack where
  /-- ACK is low for `wait` clock periods and then high: the operation completes. -/
  | after (wait : Nat)
  /-- ACK stays low until RESET: the operation does not complete. -/
  | never
  deriving DecidableEq, Repr

/-- The clock periods an acknowledgement lets the processor wait (R51). -/
def Ack.wait : Ack → Nat
  | .after n => n
  | .never => 0

/-- A bus operation of the processor (R8, R36, R102, R155, R180). -/
inductive BusOp where
  /-- The read of an instruction; the IFETCH output is low in it alone (R188). -/
  | fetch (a : Addr)
  /-- Any other read of memory. -/
  | read (a : Addr)
  | write (a : Addr) (v : Word)
  | iot (w : Word) (df : Field) (ac : Word)
  | switchRead (df : Field)
  | switchWrite (df : Field) (v : Word)
  deriving DecidableEq, Repr

/-- What the processor sends out on the bus, other than its memory accesses: the output side of the environment
primitives of rule R8. -/
inductive BusEvent where
  /-- An external IOT: the instruction word, DF and AC (R180). -/
  | iot (w : Word) (df : Field) (ac : Word)
  /-- The switch-register read of OSR and LAS, DF presented (R102). -/
  | switchRead (df : Field)
  /-- The switch-register write of WSR (R155). -/
  | switchWrite (df : Field) (v : Word)
  /-- IOCLR; `lxdarLow` tells the reset pulse (low) from that of CAF (high) (R154, R214). -/
  | ioClear (lxdarLow : Bool)
  /-- A word the DMA device read (R50). -/
  | dmaRead (a : Addr) (v : Word)
  deriving DecidableEq, Repr

/-- The levels of the input pins; `true` is low, the active level of every one of them (R188). -/
structure Pins where
  resetLow : Bool
  dmareqLow : Bool
  runHltLow : Bool
  cpreqLow : Bool
  intreqLow : Bool
  deriving DecidableEq, Repr

/-- The environment as data (MODEL's own fields, decision D1; log entries 8 to 10): what it will do, oldest first, and
what it has been sent, newest first. -/
structure Env where
  /-- The pin changes of each coming instruction boundary; no more are listed when the list is empty. -/
  moves : List (List PinMove)
  /-- The DMA transfers of each coming gap between two bus operations. -/
  dma : List (List DmaTransfer)
  /-- The acknowledgements of the coming bus operations; at once when the list is empty. -/
  acks : List Ack
  /-- The clock periods that bus operations have waited so far (R51, R232). -/
  waited : Nat
  /-- The answers of the external devices to the coming IOTs; a free value answers when the list is empty. -/
  answers : List DevAnswer
  /-- The words the switch-register device drives at its coming reads; a free value when the list is empty. -/
  switches : List Word
  /-- What the processor has sent out, newest first. -/
  bus : List BusEvent
  deriving DecidableEq, Repr

/-- The state of the HD-6120. A flag is `true` when it is 1. -/
@[ext]
structure State where
  /-- AC, the accumulator (R10). -/
  ac : Word
  /-- L, the link (R11). -/
  l : Bool
  /-- MQ (R12). -/
  mq : Word
  /-- PC, the address of the next instruction within its field (R13). -/
  pc : Word
  /-- SP1, the first stack pointer (R14). -/
  sp1 : Word
  /-- SP2, the second stack pointer (R14). -/
  sp2 : Word
  /-- OL in its one architectural role: the address of the current instruction (R15). -/
  ol : Word
  /-- TEMP, which latches the result of an ALU operation and is an internal register during execution (R16). -/
  temp : Word
  /-- IR, the current instruction word (R17). -/
  ir : Word
  /-- IF, the instruction field (R20). -/
  ifr : Field
  /-- IB, the instruction buffer (R21). -/
  ib : Field
  /-- ISF, the instruction save field (R22). -/
  isf : Field
  /-- DF, the data field (R23). -/
  df : Field
  /-- DSF, the data save field (R24). -/
  dsf : Field
  /-- IEFF, interrupt enable (R25). -/
  ieff : Bool
  /-- IIFF, interrupt inhibit (R26). -/
  iiff : Bool
  /-- CTRLFF: panel mode (R27). -/
  ctrlff : Bool
  /-- FZ, force zero (R28). -/
  fz : Bool
  /-- PDF, panel data (R29). -/
  pdf : Bool
  /-- RUNHLT in the run state (R30). -/
  running : Bool
  /-- PWRON, the power-on request flag (R31). -/
  pwron : Bool
  /-- PNLTRP, the panel trap request flag (R31). -/
  pnltrp : Bool
  /-- HLTFLG, the halt request flag (R31). -/
  hltflg : Bool
  /-- BTSTRP, the bootstrap request flag (R31). -/
  btstrp : Bool
  /-- GT, the greater-than flag (R32). -/
  gt : Bool
  /-- PEXFF, "prior PEX" (R33). -/
  pexff : Bool
  /-- INTGNTFF, the interrupt grant flip flop (R33). -/
  intgntff : Bool
  /-- NOGRANT, the one-instruction grant delay (R34). -/
  nogrant : Bool
  /-- The bus operation that is waiting for ACK and will not get it before RESET (R46, R51, U6 `stuck`). -/
  waiting : Option BusOp
  /-- Main and panel memory (R36). -/
  mem : Memory
  /-- The input pins (R188). -/
  pins : Pins
  /-- The environment (decision D1). -/
  env : Env
  /-- The platform parameters (R5); no step changes them. -/
  platform : Platform
  /-- MODEL's own: how many free values have been used, the argument of the next one. -/
  fresh : Nat
  /-- MODEL's own: the clock periods, two a minor cycle (R230), that the data sheet's table accounts for so far
  (R231). -/
  clocks : Nat
  /-- MODEL's own: how many instructions and entry sequences so far have no stated cycle count (R231, N9). -/
  untimed : Nat
  deriving DecidableEq, Repr

/-- Why the machine stops: never. The part has no fault of any kind (R187, R201); an operation that nothing acknowledges is
a wait (R46), a next state. The type has no constructor, so no claim can be about a fault. -/
inductive Fault where
  deriving DecidableEq, Repr

/-- Why an instruction is given no meaning. -/
inductive Refusal where
  /-- The instruction has no meaning in this model yet. Raised by an arm of `exec` only; safe. No arm raises it. -/
  | notModelled (mnemonic : String)
  deriving DecidableEq, Repr

/-- The default platform of decision D2: both spaces all RAM, STRTUP high (rule R213's main-memory start), the default
values of D5, D6 and D14. DESIGN CHOICE, log entry 1. -/
def Platform.standard : Platform where
  strtupLow := false
  regions := []
  jmsStoreAfterTransfer := true
  rtnMainStackOnlyAfterPex := true
  consultAfterGrant := true

/-- The machine right after reset with STRTUP high (R35, R212, R213), every pin at its inactive level, nothing
scripted for the environment. SP1, SP2, FZ, PDF, OL, TEMP, IR and memory have no reset value in the spec: log entries 2, 3
and 5. -/
def State.reset : State where
  ac := 0
  l := false
  mq := 0
  pc := 0o7777
  sp1 := 0
  sp2 := 0
  ol := 0
  temp := 0
  ir := 0
  ifr := 0
  ib := 0
  isf := 0
  df := 0
  dsf := 0
  ieff := false
  iiff := false
  ctrlff := false
  fz := false
  pdf := false
  running := true
  pwron := false
  pnltrp := false
  hltflg := false
  btstrp := false
  gt := false
  pexff := false
  intgntff := false
  nogrant := false
  waiting := none
  mem := []
  pins := ⟨false, false, false, false, false⟩
  env := ⟨[], [], [], 0, [], [], []⟩
  platform := Platform.standard
  fresh := 0
  clocks := 0
  untimed := 0

end Sys2Proof.Machine
end

