-- ==== Sys2Proof/Machine/Memory.lean ====
section
/-! DEFINITION. Memory as the processor and the DMA device see it (rules R36, R43 to R46, R50): whole 12-bit words of two
spaces of eight fields, behind the platform's map of RAM, ROM and absent words. -/

namespace Sys2Proof

/-- The number of a word address: space, then field, then offset (R36). Different addresses have different numbers. -/
def Addr.key (a : Addr) : Nat :=
  (match a.space with | .main => 0 | .panel => 32768) + a.field.toNat * 4096 + a.offset.toNat

/-- The address lies in the region (R5). -/
def Region.covers (r : Region) (a : Addr) : Bool :=
  r.space == a.space && r.field == a.field && r.first ≤ a.offset && a.offset ≤ r.last

/-- What stands behind a word address: the first region that covers it decides, and a word under none is RAM (R46,
decision D2). -/
def Platform.kindOf (p : Platform) (a : Addr) : MemKind :=
  match p.regions.find? (fun r => r.covers a) with
  | some r => r.kind
  | none => .ram

end Sys2Proof

namespace Sys2Proof.Machine

/-- The word listed at a number, or what an unlisted word reads as. -/
def Memory.get : Memory → Nat → Word
  | [], _ => Memory.blank
  | (k, v) :: rest, n => if k = n then v else Memory.get rest n

/-- A cell put in front of the cells above it, left out when it holds what an unlisted word reads as. -/
def Memory.cons (n : Nat) (v : Word) (m : Memory) : Memory :=
  if v = Memory.blank then m else (n, v) :: m

/-- The memory with the word at a number replaced, in canonical form again. -/
def Memory.set : Memory → Nat → Word → Memory
  | [], n, v => Memory.cons n v []
  | (k, u) :: rest, n, v =>
    if n < k then Memory.cons n v ((k, u) :: rest)
    else if k = n then Memory.cons n v rest
    else (k, u) :: Memory.set rest n v

/-- `MemRead(a, 1)` on a memory behind a platform (R36): an absent word reads as a value fixed by the platform (U6,
D2; log entry 7). -/
def Memory.read (p : Platform) (m : Memory) (a : Addr) : Word :=
  match p.kindOf a with
  | .absent => Config.absentWord a
  | _ => m.get a.key

/-- `MemWrite(a, 1, v)` on a memory behind a platform (R36): a write to a ROM or absent word changes nothing (U6,
D2). -/
def Memory.write (p : Platform) (m : Memory) (a : Addr) (v : Word) : Memory :=
  match p.kindOf a with
  | .ram => m.set a.key v
  | _ => m

/-- `MemRead(a, 1)` (R36). -/
def State.read (s : State) (a : Addr) : Word :=
  s.mem.read s.platform a

/-- `MemWrite(a, 1, v)` (R36). -/
def State.write (s : State) (a : Addr) (v : Word) : State :=
  { s with mem := s.mem.write s.platform a v }

/-- The memory after the transfers of one DMA grant, in order (R50). -/
def dmaMemory (p : Platform) : Memory → List DmaTransfer → Memory
  | m, [] => m
  | m, .read _ :: rest => dmaMemory p m rest
  | m, .write a v :: rest => dmaMemory p (m.write p a v) rest

/-- What the DMA device has been given, newest first, after the transfers of one grant (R50). -/
def dmaEvents (p : Platform) : Memory → List DmaTransfer → List BusEvent → List BusEvent
  | _, [], b => b
  | m, .read a :: rest, b => dmaEvents p m rest (.dmaRead a (m.read p a) :: b)
  | m, .write a v :: rest, b => dmaEvents p (m.write p a v) rest b

/-- The gap before one bus operation of the processor: the DMA device makes the transfers the environment lists for
it. No register or flag changes (R50, R204). -/
def State.dmaGap (s : State) : State :=
  { s with
    mem := dmaMemory s.platform s.mem (s.env.dma.headD [])
    env := { s.env with
      dma := s.env.dma.tail
      bus := dmaEvents s.platform s.mem (s.env.dma.headD []) s.env.bus } }

/-- Some DMA transfer that the environment lists writes the word. -/
def State.dmaMayWrite (s : State) (a : Addr) : Prop :=
  ∃ gap ∈ s.env.dma, ∃ v, DmaTransfer.write a v ∈ gap

/-! ### Bus operations and their acknowledgement -/

/-- What a run of bus operations comes to: all acknowledged, with the value found and the state after them, or one that
waits for ACK until RESET, with the state meanwhile (R46, R51). -/
inductive Bus (α : Type) where
  | done (v : α) (t : State)
  | hung (t : State)

/-- The state after the operations, or the state in which one of them waits. -/
def Bus.state {α : Type} : Bus α → State
  | .done _ t => t
  | .hung t => t

/-- The value found, or a given one where an operation waits. -/
def Bus.getD {α : Type} (b : Bus α) (d : α) : α :=
  match b with
  | .done v _ => v
  | .hung _ => d

/-- What follows acknowledged operations: more operations. Nothing follows one that waits. -/
def Bus.andThen {α β : Type} (b : Bus α) (f : α → State → Bus β) : Bus β :=
  match b with
  | .done v t => f v t
  | .hung t => .hung t

/-- What follows acknowledged operations: the rest of the instruction. Nothing follows one that waits. -/
def Bus.finish {α : Type} (b : Bus α) (f : α → State → State) : State :=
  match b with
  | .done v t => f v t
  | .hung t => t

/-- The next bus operation is acknowledged (R46); log entry 15. -/
def State.acknowledged (s : State) : Bool :=
  s.env.acks.head? != some .never

/-- The next acknowledgement used up, its wait added to the record: no other state changes while waiting (R51). -/
def State.takeAck (s : State) : State :=
  { s with env := { s.env with
      acks := s.env.acks.tail
      waited := s.env.waited + ((s.env.acks.head?).map Ack.wait).getD 0 } }

/-- One bus operation: `f` is its effect once it is acknowledged. Until then the processor "stays in that bus
operation" (R46, U6). -/
def State.transact {α : Type} (s : State) (op : BusOp) (f : State → α × State) : Bus α :=
  if s.acknowledged then .done (f s.takeAck).1 (f s.takeAck).2 else .hung { s.takeAck with waiting := some op }

/-- The bus operation that reads an instruction (R188 step 7). -/
def State.fetchOp (s : State) (a : Addr) : Bus Word :=
  s.transact (.fetch a) fun t => (t.read a, t)

/-- The bus operation of `MemRead` in the execution of an instruction. -/
def State.readOp (s : State) (a : Addr) : Bus Word :=
  s.transact (.read a) fun t => (t.read a, t)

/-- The bus operation of `MemWrite`. -/
def State.writeOp (s : State) (a : Addr) (v : Word) : Bus Unit :=
  s.transact (.write a v) fun t => ((), t.write a v)

/-- One bus read by an instruction, after the gap in which DMA may come (R45, R50). -/
def State.busRead (s : State) (a : Addr) : Bus Word :=
  s.dmaGap.readOp a

/-- One bus write by an instruction, after the gap in which DMA may come (R45, R50). -/
def State.busWrite (s : State) (a : Addr) (v : Word) : Bus Unit :=
  s.dmaGap.writeOp a v

/-- The read-modify-write that adds one to a word, with no DMA between its read and its write (R45, D8); the value found
is the new one. -/
def State.busIncrement (s : State) (a : Addr) : Bus Word :=
  (s.busRead a).andThen fun v t => (t.writeOp a (v + 1)).andThen fun _ u => .done (v + 1) u

end Sys2Proof.Machine
end

