-- ==== Sys2Proof/Machine/Ops.lean ====
section
/-! DEFINITION. The operations the instructions and the step share: address spaces (R38 to R40), the skip (R8), the field
transfer (R63), the stacks (R14, R135), the device and switch-register transactions (R102, R155, R180), the priority
network (R188 to R193), TAKING A PANEL REQUEST OR A DEVICE INTERRUPT (R194, R197), and reset (R212, R213). -/

namespace Sys2Proof.Machine

/-! ### Address spaces -/

/-- The space that instructions, stacks and direct operands are in: panel memory while CTRLFF is set (R38, R40). -/
def State.ownSpace (s : State) : Space :=
  if s.ctrlff then .panel else .main

/-- A word of the instruction address space `IA_space()`: field IF, or field 0 in panel mode with FZ set (R38). -/
def State.instrAddr (s : State) (offset : Word) : Addr :=
  ⟨s.ownSpace, if s.ctrlff && s.fz then 0 else s.ifr, offset⟩

/-- A word of `DATA_space()`, where indirect operands are: field DF, of panel memory only in panel mode with PDF set
(R39). -/
def State.dataAddr (s : State) (offset : Word) : Addr :=
  ⟨if s.ctrlff && s.pdf then .panel else .main, s.df, offset⟩

/-- A word of `StackSpace()`: always field 0 (R40, R135). -/
def State.stackAddr (s : State) (offset : Word) : Addr :=
  ⟨s.ownSpace, 0, offset⟩

/-! ### Program counter, accumulator, fields -/

/-- The skip of the next instruction, taken when the condition holds (R8, R13). -/
def State.skipIf (s : State) (c : Bool) : State :=
  { s with pc := if c then s.pc + 1 else s.pc }

/-- AC cleared. -/
def State.clearAc (s : State) : State :=
  { s with ac := 0 }

/-- A micro-operation done when its bit is 1 (R73, R98). -/
def State.doIf (s : State) (c : Bool) (f : State → State) : State :=
  if c then f s else s

/-- HLT's micro-operation: the panel request flag HLTFLG set (R101). -/
def State.requestHalt (s : State) : State :=
  { s with hltflg := true }

/-- The software trap of PR0 to PR3: PNLTRP set in main mode, no effect in panel mode (R161). -/
def State.panelTrap (s : State) : State :=
  { s with pnltrp := s.pnltrp || !s.ctrlff }

/-- An uninterruptable instruction delays the next grant (R34, R134). -/
def State.delayGrantIf (s : State) (c : Bool) : State :=
  { s with nogrant := s.nogrant || c }

/-- The group 3 formula (R125): CLA first, then MQA and MQL together on the values before the instruction. -/
def State.group3 (s : State) (cla mqa mql : Bool) : State :=
  let a := if cla then 0 else s.ac
  { s with
    ac := if mqa then (if mql then s.mq else a ||| s.mq) else (if mql then 0 else a)
    mq := if mql then a else s.mq }

/-- `FieldTransfer()`, part of JMP, JMS, RTN1 and RTN2 (R63): IF is loaded from IB, a pending inhibit clears FZ and is
cleared, and a pending panel exit clears CTRLFF and delays the next grant. -/
def State.fieldTransfer (s : State) : State :=
  { s with
    ifr := s.ib
    fz := s.fz && !s.iiff
    iiff := false
    ctrlff := s.ctrlff && !s.pexff
    nogrant := s.nogrant || s.pexff
    pexff := false }

/-! ### Stacks -/

/-- Push through SP1: write, then decrement (R14, R135). -/
def State.push1 (s : State) (v : Word) : State :=
  (s.busWrite (s.stackAddr s.sp1) v).finish fun _ t => { t with sp1 := t.sp1 - 1 }

/-- Push through SP2. -/
def State.push2 (s : State) (v : Word) : State :=
  (s.busWrite (s.stackAddr s.sp2) v).finish fun _ t => { t with sp2 := t.sp2 - 1 }

/-- SP1 incremented, the first act of a pop (R14). -/
def State.raiseSp1 (s : State) : State :=
  { s with sp1 := s.sp1 + 1 }

/-- SP2 incremented, the first act of a pop (R14). -/
def State.raiseSp2 (s : State) : State :=
  { s with sp2 := s.sp2 + 1 }

/-- The stack word that a return reads, `old` being the state before the instruction's field transfer and `s` the one
after it: the stack of the mode reached or, by the platform's reading of R135, the main stack for every return executed
in panel mode (R140, decision D6). -/
def State.returnAddr (s old : State) (sp : Word) : Addr :=
  if !s.platform.rtnMainStackOnlyAfterPex && old.ctrlff then ⟨.main, 0, sp⟩ else s.stackAddr sp

/-! ### Devices and the switch register -/

/-- The answer of `DevIOT(w, DF, AC)` (R180): the next scripted one, or a free value. -/
def State.deviceAnswer (s : State) (w : Word) : DevAnswer :=
  match s.env.answers with
  | a :: _ => a
  | [] => Config.deviceAnswer s.fresh w s.df s.ac

end Sys2Proof.Machine

/-- What AC holds after an external IOT (R181): C1 low reads the device, C0 low drops the old AC. -/
def Sys2Proof.DevAnswer.accumulator (d : Sys2Proof.DevAnswer) (ac : Sys2Proof.Word) : Sys2Proof.Word :=
  if d.c1Low then (if d.c0Low then d.data else ac ||| d.data) else (if d.c0Low then 0 else ac)

namespace Sys2Proof.Machine

/-- The device transaction of an external IOT (R180), after the gap in which DMA may come (R50): the device is given the
instruction word, DF and AC, and its answer is used up. -/
def State.deviceBus (s : State) (w : Word) : Bus DevAnswer :=
  s.dmaGap.transact (.iot w s.df s.ac) fun t => (t.deviceAnswer w,
    { t with
      env := { t.env with answers := t.env.answers.tail, bus := .iot w t.df t.ac :: t.env.bus }
      fresh := t.fresh + 1 })

/-- The word `SwitchRead(DF)` returns (R102): the next scripted one, or a free value. -/
def State.switchWord (s : State) : Word :=
  match s.env.switches with
  | v :: _ => v
  | [] => Config.switchWord s.fresh s.df

/-- The bus read `SwitchRead(DF)` (R102), after the gap in which DMA may come (R50). -/
def State.switchBus (s : State) : Bus Word :=
  s.dmaGap.transact (.switchRead s.df) fun t => (t.switchWord,
    { t with
      env := { t.env with switches := t.env.switches.tail, bus := .switchRead t.df :: t.env.bus }
      fresh := t.fresh + 1 })

/-- OSR's micro-operation: the switch register ORed into AC (R102). -/
def State.orSwitch (s : State) : Bus Unit :=
  s.switchBus.andThen fun v t => .done () { t with ac := t.ac ||| v }

/-- One event sent out on the bus. -/
def State.emit (s : State) (e : BusEvent) : State :=
  { s with env := { s.env with bus := e :: s.env.bus } }

/-- The bus write `SwitchWrite(DF, AC)` of WSR (R155), after the gap in which DMA may come (R50). -/
def State.switchWrite (s : State) : Bus Unit :=
  s.dmaGap.transact (.switchWrite s.df s.ac) fun t => ((), t.emit (.switchWrite t.df t.ac))

/-- `IntReqLow()`: the INTREQ pin is low (R192). -/
def State.intReqLow (s : State) : Bool :=
  s.pins.intreqLow

/-- The INTGNT output is low: the grant flip flop shows only in main mode (R33). -/
def State.intgntLow (s : State) : Bool :=
  s.intgntff && !s.ctrlff

/-- The RUN output is low: "at all times except during the reset and halt states" (R30, R203), a DMA grant outside them
included (R204). DESIGN CHOICE, log entry 30: while DMA is granted in the halt state it stays high, although R204 says of a
grant that RUN "is held low". -/
def State.runOutLow (s : State) : Bool :=
  s.running && !s.pins.resetLow

/-- The DMAGNT output is high at a boundary (R50): DMAREQ is granted, in the halt state too, but not during reset (R214)
and not before the bus operation in progress has ended. The grants inside an instruction are those of its gaps. -/
def State.dmagntHigh (s : State) : Bool :=
  s.pins.dmareqLow && !s.pins.resetLow && s.waiting.isNone

/-! ### The free effect of the undefined internal IOT words -/

/-- The permissive treatment of a reserved internal IOT word (R184, decision D3): "any state change limited to AC, L
and the flags", as free values, within what other rules say no instruction does: INTGNTFF (U2) and RUNHLT (R203) keep
their values, main mode is not left (R206), and IIFF does not become 0 while IB differs from IF (R21). -/
def State.reservedEffect (s : State) : State :=
  { s with
    ac := Config.reservedAc s.fresh
    l := (Config.reservedFlags s.fresh).getLsbD 0
    ieff := (Config.reservedFlags s.fresh).getLsbD 1
    iiff := s.ib != s.ifr || (Config.reservedFlags s.fresh).getLsbD 2
    ctrlff := s.ctrlff && (Config.reservedFlags s.fresh).getLsbD 3
    fz := (Config.reservedFlags s.fresh).getLsbD 4
    pdf := (Config.reservedFlags s.fresh).getLsbD 5
    pwron := (Config.reservedFlags s.fresh).getLsbD 6
    pnltrp := (Config.reservedFlags s.fresh).getLsbD 7
    hltflg := (Config.reservedFlags s.fresh).getLsbD 8
    btstrp := (Config.reservedFlags s.fresh).getLsbD 9
    gt := (Config.reservedFlags s.fresh).getLsbD 10
    pexff := (Config.reservedFlags s.fresh).getLsbD 11
    nogrant := (Config.reservedFlags s.fresh).getLsbD 12
    fresh := s.fresh + 1 }

/-! ### Taking a panel request and a device interrupt -/

/-- `PanelEntry()` (R197): CTRLFF and FZ are set and PDF cleared, then PC is stored at panel (0, 0000), and execution
continues at panel (0, 7777). -/
def State.panelEntry (s : State) : State :=
  (({ s with ctrlff := true, fz := true, pdf := false } : State).writeOp ⟨.panel, 0, 0⟩ s.pc).finish fun _ t =>
    { t with pc := 0o7777 }

/-- `InterruptGrant()` (R194): PC is stored at main (0, 0000), the fields are saved and cleared, IEFF is cleared and
INTGNTFF set, execution continues at main (0, 0001). Where the platform does not consult the priority network again
before the routine's first instruction (U9), the grant delay stands for that. -/
def State.interruptGrant (s : State) : State :=
  (s.writeOp ⟨.main, 0, 0⟩ s.pc).finish fun _ t =>
    { t with
      ieff := false
      intgntff := true
      isf := t.ifr
      dsf := t.df
      ifr := 0
      ib := 0
      df := 0
      pc := 1
      nogrant := t.nogrant || !t.platform.consultAfterGrant }

/-- `PanelRequestGrantable()` (R191). -/
def State.panelGrantable (s : State) : Bool :=
  (s.pwron || s.pnltrp || s.hltflg || s.btstrp) && !s.ctrlff && !s.iiff

/-- `InterruptGrantable()` (R193). -/
def State.interruptGrantable (s : State) : Bool :=
  s.intReqLow && s.ieff && !s.iiff && !s.ctrlff

/-! ### The record of time -/

/-- The record of elapsed time: a stated count of minor cycles is added to the clock periods, two each (R230), and a
sequence without one is counted apart. -/
def State.spend (s : State) (n : Option Nat) : State :=
  match n with
  | some k => { s with clocks := s.clocks + 2 * k }
  | none => { s with untimed := s.untimed + 1 }

/-- The time of a sequence that has a stated count if none of its bus operations is left waiting (R231, R232). -/
def State.spendIfDone (s : State) (n : Option Nat) : State :=
  s.spend (if s.waiting.isSome then none else n)

/-! ### Reset and the input pins -/

/-- The bus operation in progress when RESET falls ends unacknowledged (R211, U6). The word that a write was storing has
any value afterwards (U7, D18); what the instruction did before stands. -/
def State.cutShort (s : State) : State :=
  match s.waiting with
  | some (.write a _) => { s.write a (Config.cutWord s.fresh) with waiting := none, fresh := s.fresh + 1 }
  | _ => { s with waiting := none }

/-- `Reset()`, the state held while RESET is low (R212). SP1, SP2, FZ, PDF and memory are not changed. -/
def State.resetHold (s : State) : State :=
  { s.emit (.ioClear true) with
    ac := 0
    l := false
    mq := 0
    ifr := 0
    ib := 0
    df := 0
    isf := 0
    dsf := 0
    ieff := false
    iiff := false
    gt := false
    ctrlff := false
    hltflg := false
    pnltrp := false
    btstrp := false
    pexff := false
    nogrant := false
    intgntff := false
    running := true
    pwron := s.platform.strtupLow
    pc := 0o7777 }

/-- `StartUp()`, when RESET goes high (R213): with STRTUP low a panel entry, else nothing. -/
def State.startUp (s : State) : State :=
  if s.platform.strtupLow then s.panelEntry.spend none else s

/-- RESET goes high: IOCLR ends, 5 1/2 minor cycles pass before the first address strobe (R214, R231), and the machine
starts up. -/
def State.release (s : State) : State :=
  { ({ s with clocks := s.clocks + 11 } : State).startUp with pins := { s.pins with resetLow := false } }

/-- One change of an input pin's level. RESET acts by its level (R211), INTREQ and DMAREQ are levels the network reads
(R192, R204), CPREQ acts on its falling edge unless RESET is low (R31, D17), RUN/HLT on its rising edge (R30, R203). -/
def State.movePin (s : State) (m : PinMove) : State :=
  match m.pin with
  | .reset =>
    if m.low then
      if s.pins.resetLow then s else { s.cutShort.resetHold with pins := { s.pins with resetLow := true } }
    else
      if s.pins.resetLow then s.release else s
  | .dmareq => { s with pins := { s.pins with dmareqLow := m.low } }
  | .runHlt =>
    { s with
      pins := { s.pins with runHltLow := m.low }
      running := if s.pins.runHltLow && !m.low && !s.pins.resetLow then !s.running else s.running }
  | .cpreq =>
    { s with
      pins := { s.pins with cpreqLow := m.low }
      btstrp := s.btstrp || (!s.pins.cpreqLow && m.low && !s.pins.resetLow) }
  | .intreq => { s with pins := { s.pins with intreqLow := m.low } }

/-- The pin changes the environment lists for this boundary, in order (D1). -/
def State.movePins (s : State) : State :=
  (s.env.moves.headD []).foldl State.movePin { s with env := { s.env with moves := s.env.moves.tail } }

/-- The gap at a boundary: DMA transfers are made unless RESET holds DMAGNT low (R214) or a bus operation is in
progress (R50: "granted at the end of the current bus operation"). -/
def State.boundaryGap (s : State) : State :=
  if s.pins.resetLow || s.waiting.isSome then s else s.dmaGap

/-- The state the priority network sees at a boundary: pin changes and DMA transfers have been made (R188). -/
def State.boundary (s : State) : State :=
  s.movePins.boundaryGap

/-! ### The priority network and the fetch -/

/-- What the priority network decides at a boundary (R188, R189). -/
inductive Decision where
  /-- Reset, a bus operation still waiting, a DMA device holding the bus, or halt: no instruction and no grant. -/
  | hold
  | panelEntry
  | interruptGrant
  | fetch
  deriving DecidableEq, Repr

/-- `Boundary()` after the pin changes (R188): RESET, the bus operation in progress (R46, R51), DMAREQ, RUN/HLT, the grant
delay (R190), the panel request, the device interrupt, the fetch. -/
def State.decision (s : State) : Decision :=
  if s.pins.resetLow then .hold
  else if s.waiting.isSome then .hold
  else if s.pins.dmareqLow then .hold
  else if !s.running then .hold
  else if s.nogrant then .fetch
  else if s.panelGrantable then .panelEntry
  else if s.interruptGrantable then .interruptGrant
  else .fetch

/-- The IFETCH output is low at a boundary: the bus operation that begins there, or that still waits there, is the fetch of
an instruction (R188); never while RESET is low (R214). It is high in every other bus operation of the processor. -/
def State.ifetchLow (s : State) : Bool :=
  match s.waiting with
  | some (.fetch _) => !s.pins.resetLow
  | _ => s.decision == .fetch

/-- The instruction fetch (R13, R15, R17, R188 steps 4 and 7): the grant delay has been used up, OL takes the address and IR
the word, and PC is incremented. -/
def State.fetch (s : State) : Bus Unit :=
  (({ s with ol := s.pc, nogrant := false } : State).fetchOp (s.instrAddr s.pc)).andThen fun w t =>
    .done () { t with ir := w, pc := t.pc + 1 }

/-- TEMP after the execution of an instruction: results of the ALU have passed through it and it has been "used as an
internal register during instruction execution" (R16), so what it holds is a free value. -/
def State.latchTemp (s : State) : State :=
  { s with temp := Config.temp s.fresh, fresh := s.fresh + 1 }

end Sys2Proof.Machine
end

