-- ==== Sys2Proof/Machine/Flags.lean ====
section
/-! DEFINITION. Every computation of L and of the status words: the carry that complements L (R11), the rotates of L and
AC (R74), the words GTF, GCF and PRS read (R156, R160, R166) and RTF loads (R152), and the skip test of group 2
(R98). -/

namespace Sys2Proof.Machine

/-- The carry out of bit 0 of a 12-bit sum (R68). -/
def carryOut (a b : Word) : Bool :=
  4096 ≤ a.toNat + b.toNat

/-- AC plus a word; a carry complements L (R11, R68). -/
def State.addAc (s : State) (v : Word) : State :=
  { s with ac := s.ac + v, l := s.l ^^ carryOut s.ac v }

/-- CLL: L cleared (R86). -/
def State.clearLink (s : State) : State :=
  { s with l := false }

/-- CML: L complemented (R83). -/
def State.complementLink (s : State) : State :=
  { s with l := !s.l }

/-- CMA: AC complemented (R84). -/
def State.complementAc (s : State) : State :=
  { s with ac := ~~~s.ac }

/-- IAC: AC incremented, the carry complementing L (R76). -/
def State.incrementAc (s : State) : State :=
  s.addAc 1

/-- BSW: the halves of AC exchanged (R77). -/
def State.byteSwap (s : State) : State :=
  { s with ac := ((s.ac &&& 0o77) <<< 6) ||| (s.ac >>> 6) }

/-- RAL: L and AC rotated one place left (R78). -/
def State.rotateLeft (s : State) : State :=
  { s with ac := (s.ac <<< 1) ||| bitWord s.l, l := bit s.ac 0 }

/-- RAR: L and AC rotated one place right (R80). -/
def State.rotateRight (s : State) : State :=
  { s with ac := (s.ac >>> 1) ||| (bitWord s.l <<< 11), l := bit s.ac 11 }

/-- R3L: AC alone rotated three places left (R82). -/
def State.rotateThree (s : State) : State :=
  { s with ac := (s.ac <<< 3) ||| (s.ac >>> 9) }

/-- The "Do Not Use" rotate code: AC and L hold any value afterwards (R74, U1); log entry 11. -/
def State.rotateUndefined (s : State) : State :=
  { s with ac := Config.rotateAc s.fresh, l := Config.rotateLink s.fresh, fresh := s.fresh + 1 }

/-- `Rotate(w<8:10>)` (R74). -/
def State.rotate (s : State) (code : Field) : State :=
  match code.toNat with
  | 0 => s
  | 1 => s.byteSwap
  | 2 => s.rotateLeft
  | 3 => s.rotateLeft.rotateLeft
  | 4 => s.rotateRight
  | 5 => s.rotateRight.rotateRight
  | 6 => s.rotateThree
  | _ => s.rotateUndefined

/-- Step 1 of group 2 (R98): whether the selected tests, in the selected sense, take the skip. -/
def State.skipTest (s : State) (sma sza snl sense : Bool) : Bool :=
  ((sma && bit s.ac 0) || (sza && s.ac == 0) || (snl && s.l)) ^^ sense

/-- L, GT, INTREQ, PWRON, one bit, 0, and two field numbers: the word of GTF and GCF (R156, R160). -/
def State.statusWord (s : State) (bit4 : Bool) (f g : Field) : Word :=
  BitVec.ofBool s.l ++ BitVec.ofBool s.gt ++ BitVec.ofBool s.intReqLow ++ BitVec.ofBool s.pwron ++
    BitVec.ofBool bit4 ++ 0b0#1 ++ f ++ g

/-- BTSTRP, PNLTRP, INTREQ, PWRON, HLTFLG and seven zeros: the word of PRS (R166). -/
def State.panelStatus (s : State) : Word :=
  BitVec.ofBool s.btstrp ++ BitVec.ofBool s.pnltrp ++ BitVec.ofBool s.intReqLow ++ BitVec.ofBool s.pwron ++
    BitVec.ofBool s.hltflg ++ 0b0000000#7

/-- The flags and fields RTF loads from AC (R152). -/
def State.restoreFlags (s : State) : State :=
  { s with
    l := bit s.ac 0
    gt := bit s.ac 1
    ieff := bit s.ac 4
    ib := bits3 s.ac 6
    df := bits3 s.ac 9
    iiff := true }

end Sys2Proof.Machine
end

