-- ==== Sys2Proof/Machine/InternalControl.lean ====
section
/-! DEFINITION. Internal control instructions, the same in both modes (rules R149 to R156). -/

namespace Sys2Proof.Machine

/-- ION: interrupts enabled, the next grant delayed (R150). -/
def execIon (s : State) : Host.Outcome State Fault Refusal :=
  .next { s with ieff := true, nogrant := true }

/-- IOF: interrupts disabled at once (R151). -/
def execIof (s : State) : Host.Outcome State Fault Refusal :=
  .next { s with ieff := false }

/-- RTF: flags and fields loaded from AC, inhibit set, AC cleared (R152). -/
def execRtf (s : State) : Host.Outcome State Fault Refusal :=
  .next s.restoreFlags.clearAc

/-- SGT: skip if GT (R153). -/
def execSgt (s : State) : Host.Outcome State Fault Refusal :=
  .next (s.skipIf s.gt)

/-- CAF: AC, L, GT and IEFF cleared, IOCLR pulsed with LXDAR high (R154). -/
def execCaf (s : State) : Host.Outcome State Fault Refusal :=
  .next { s.emit (.ioClear false) with ac := 0, l := false, gt := false, ieff := false }

/-- WSR: AC sent to the switch-register device selected by DF, then cleared (R155). -/
def execWsr (s : State) : Host.Outcome State Fault Refusal :=
  .next (s.switchWrite.finish fun _ t => t.clearAc)

/-- GCF: the flags and the current fields read into AC (R156). -/
def execGcf (s : State) : Host.Outcome State Fault Refusal :=
  .next { s with ac := s.statusWord s.ieff s.ifr s.df }

end Sys2Proof.Machine
end

