-- ==== Sys2Proof/Machine/IoTransfer.lean ====
section
/-! DEFINITION. External input/output transfer and the 16 internal IOT words without a definition (rules R179 to R186). -/

namespace Sys2Proof.Machine

/-- IOT: one transaction with an external device, whose answer says what AC takes and whether to skip; in main mode it
ends the interrupt grant (R180 to R183). -/
def execIot (device : BitVec 6) (operation : Field) (s : State) : Host.Outcome State Fault Refusal :=
  .next ((s.deviceBus (0b110#3 ++ device ++ operation)).finish fun d t =>
    { t.skipIf d.skipLow with ac := d.accumulator t.ac, intgntff := t.intgntff && t.ctrlff })

/-- The reserved internal IOT word 6200 (R184): its permissive treatment (decision D3). -/
def execReserved6200 (s : State) : Host.Outcome State Fault Refusal :=
  .next s.reservedEffect

/-- The reserved internal IOT word 6210 (R184): its permissive treatment (decision D3). -/
def execReserved6210 (s : State) : Host.Outcome State Fault Refusal :=
  .next s.reservedEffect

/-- The reserved internal IOT word 6220 (R184): its permissive treatment (decision D3). -/
def execReserved6220 (s : State) : Host.Outcome State Fault Refusal :=
  .next s.reservedEffect

/-- The reserved internal IOT word 6230 (R184): its permissive treatment (decision D3). -/
def execReserved6230 (s : State) : Host.Outcome State Fault Refusal :=
  .next s.reservedEffect

/-- The reserved internal IOT word 6240 (R184): its permissive treatment (decision D3). -/
def execReserved6240 (s : State) : Host.Outcome State Fault Refusal :=
  .next s.reservedEffect

/-- The reserved internal IOT word 6250 (R184): its permissive treatment (decision D3). -/
def execReserved6250 (s : State) : Host.Outcome State Fault Refusal :=
  .next s.reservedEffect

/-- The reserved internal IOT word 6260 (R184): its permissive treatment (decision D3). -/
def execReserved6260 (s : State) : Host.Outcome State Fault Refusal :=
  .next s.reservedEffect

/-- The reserved internal IOT word 6270 (R184): its permissive treatment (decision D3). -/
def execReserved6270 (s : State) : Host.Outcome State Fault Refusal :=
  .next s.reservedEffect

/-- The reserved internal IOT word 6204 (R184): its permissive treatment (decision D3). -/
def execReserved6204 (s : State) : Host.Outcome State Fault Refusal :=
  .next s.reservedEffect

/-- The reserved internal IOT word 6254 (R184): its permissive treatment (decision D3). -/
def execReserved6254 (s : State) : Host.Outcome State Fault Refusal :=
  .next s.reservedEffect

/-- The reserved internal IOT word 6264 (R184): its permissive treatment (decision D3). -/
def execReserved6264 (s : State) : Host.Outcome State Fault Refusal :=
  .next s.reservedEffect

/-- The reserved internal IOT word 6274 (R184): its permissive treatment (decision D3). -/
def execReserved6274 (s : State) : Host.Outcome State Fault Refusal :=
  .next s.reservedEffect

/-- The reserved internal IOT word 6247 (R184): its permissive treatment (decision D3). -/
def execReserved6247 (s : State) : Host.Outcome State Fault Refusal :=
  .next s.reservedEffect

/-- The reserved internal IOT word 6257 (R184): its permissive treatment (decision D3). -/
def execReserved6257 (s : State) : Host.Outcome State Fault Refusal :=
  .next s.reservedEffect

/-- The reserved internal IOT word 6267 (R184): its permissive treatment (decision D3). -/
def execReserved6267 (s : State) : Host.Outcome State Fault Refusal :=
  .next s.reservedEffect

/-- The reserved internal IOT word 6277 (R184): its permissive treatment (decision D3). -/
def execReserved6277 (s : State) : Host.Outcome State Fault Refusal :=
  .next s.reservedEffect

end Sys2Proof.Machine
end

