-- ==== Sys2Proof/Machine/MainControl.lean ====
section
/-! DEFINITION. Main memory control instructions (rules R157 to R164). The decoder gives SKON, SRQ and GTF in main mode only (R59). -/

namespace Sys2Proof.Machine

/-- SKON: skip if interrupts are enabled, and disable them (R158). -/
def execSkon (s : State) : Host.Outcome State Fault Refusal :=
  .next { s.skipIf s.ieff with ieff := false }

/-- SRQ: skip if INTREQ is low, whatever IEFF and IIFF hold (R159). -/
def execSrq (s : State) : Host.Outcome State Fault Refusal :=
  .next (s.skipIf s.intReqLow)

/-- GTF: the flags, a constant 1 and the save fields read into AC (R160). -/
def execGtf (s : State) : Host.Outcome State Fault Refusal :=
  .next { s with ac := s.statusWord true s.isf s.dsf }

/-- PR0: the panel trap requested in main mode, nothing in panel mode (R161). -/
def execPr0 (s : State) : Host.Outcome State Fault Refusal :=
  .next s.panelTrap

/-- PR1: the panel trap requested in main mode, nothing in panel mode (R162). -/
def execPr1 (s : State) : Host.Outcome State Fault Refusal :=
  .next s.panelTrap

/-- PR2: the panel trap requested in main mode, nothing in panel mode (R163). -/
def execPr2 (s : State) : Host.Outcome State Fault Refusal :=
  .next s.panelTrap

/-- PR3: the panel trap requested in main mode, nothing in panel mode (R164). -/
def execPr3 (s : State) : Host.Outcome State Fault Refusal :=
  .next s.panelTrap

end Sys2Proof.Machine
end

