-- ==== Sys2Proof/Machine/MemoryExtension.lean ====
section
/-! DEFINITION. Memory extension instructions (rules R171 to R178). -/

namespace Sys2Proof.Machine

/-- CDF: the data field changed at once (R172). -/
def execCdf (x : Field) (s : State) : Host.Outcome State Fault Refusal :=
  .next { s with df := x }

/-- CIF: the instruction buffer loaded and the inhibit set (R173). -/
def execCif (x : Field) (s : State) : Host.Outcome State Fault Refusal :=
  .next { s with ib := x, iiff := true }

/-- CDF CIF: both (R174). -/
def execCdfCif (x : Field) (s : State) : Host.Outcome State Fault Refusal :=
  .next { s with df := x, ib := x, iiff := true }

/-- RDF: DF into AC bits 6 to 8 (R175). -/
def execRdf (s : State) : Host.Outcome State Fault Refusal :=
  .next { s with ac := (s.ac &&& 0o7707) ||| fieldAt6 s.df }

/-- RIF: IF into AC bits 6 to 8 (R176). -/
def execRif (s : State) : Host.Outcome State Fault Refusal :=
  .next { s with ac := (s.ac &&& 0o7707) ||| fieldAt6 s.ifr }

/-- RIB: the save fields into AC bits 6 to 11 (R177). -/
def execRib (s : State) : Host.Outcome State Fault Refusal :=
  .next { s with ac := (s.ac &&& 0o7700) ||| fieldAt6 s.isf ||| fieldAt9 s.dsf }

/-- RMF: the save fields restored to IB and DF, the inhibit set (R178). -/
def execRmf (s : State) : Host.Outcome State Fault Refusal :=
  .next { s with ib := s.isf, df := s.dsf, iiff := true }

end Sys2Proof.Machine
end

