-- ==== Sys2Proof/Machine/Operands.lean ====
section
/-! DEFINITION. The operand forms of the memory reference instructions (rules R61, R64, R65): page zero or current page,
direct or indirect, with the eight autoindex locations. -/

namespace Sys2Proof.Machine

/-- The instruction address IA (R64): page 0, or the page of the instruction itself, whose address is in OL. -/
def State.instructionAddress (s : State) (currentPage : Bool) (page : BitVec 7) : Word :=
  if currentPage then (s.ol &&& 0o7600) ||| page.setWidth 12 else page.setWidth 12

/-- The autoindex locations 0010 to 0017, tested on the whole address however it was formed (R64). -/
def autoindex (ia : Word) : Bool :=
  0o0010 ≤ ia && ia ≤ 0o0017

/-- The effective address and the bus operations that find it (R64): IA itself, or the contents of the pointer at IA in
the instruction space, which an autoindex location increments and puts back first. -/
def State.effectiveAddress (s : State) (indirect currentPage : Bool) (page : BitVec 7) : Bus Word :=
  let ia := s.instructionAddress currentPage page
  if !indirect then .done ia s
  else if autoindex ia then s.busIncrement (s.instrAddr ia)
  else s.busRead (s.instrAddr ia)

/-- `OperandAddr()` of AND, TAD, ISZ and DCA, and the pointer's bus operations (R65): direct operands in the instruction
space, indirect ones in the data space. -/
def State.operandAddr (s : State) (indirect currentPage : Bool) (page : BitVec 7) : Bus Addr :=
  (s.effectiveAddress indirect currentPage page).andThen fun ea t =>
    .done (if indirect then t.dataAddr ea else t.instrAddr ea) t

/-- The operand word of AND and TAD and the bus operations up to its read (R67, R68). -/
def State.operand (s : State) (indirect currentPage : Bool) (page : BitVec 7) : Bus Word :=
  (s.operandAddr indirect currentPage page).andThen fun a t => t.busRead a

end Sys2Proof.Machine
end

