-- ==== Sys2Proof/Machine/MemoryReference.lean ====
section
/-! DEFINITION. The six memory reference instructions (rules R66 to R72), over the operand forms of Operands.lean. -/

namespace Sys2Proof.Machine

/-- AND: the operand word ANDed into AC; L unchanged (R67). -/
def execAnd (indirect currentPage : Bool) (page : BitVec 7) (s : State) : Host.Outcome State Fault Refusal :=
  .next ((s.operand indirect currentPage page).finish fun v t => { t with ac := t.ac &&& v })

/-- TAD: the operand word added to AC, a carry complementing L (R68). -/
def execTad (indirect currentPage : Bool) (page : BitVec 7) (s : State) : Host.Outcome State Fault Refusal :=
  .next ((s.operand indirect currentPage page).finish fun v t => t.addAc v)

/-- ISZ: the operand word incremented in place, the next instruction skipped if it became zero; AC and L unchanged (R69,
decision D10). -/
def execIsz (indirect currentPage : Bool) (page : BitVec 7) (s : State) : Host.Outcome State Fault Refusal :=
  .next (((s.operandAddr indirect currentPage page).andThen fun a t => t.busIncrement a).finish fun v u =>
    u.skipIf (v == 0))

/-- DCA: AC stored in the operand word and cleared (R70). -/
def execDca (indirect currentPage : Bool) (page : BitVec 7) (s : State) : Host.Outcome State Fault Refusal :=
  .next (((s.operandAddr indirect currentPage page).andThen fun a t => t.busWrite a t.ac).finish fun _ u => u.clearAc)

/-- JMS: the return address stored at the effective address in the instruction space, after the field transfer or before
it as the platform says, and execution continued at the word after it (R71, decision D5). -/
def execJms (indirect currentPage : Bool) (page : BitVec 7) (s : State) : Host.Outcome State Fault Refusal :=
  .next ((s.effectiveAddress indirect currentPage page).finish fun ea t =>
    if t.platform.jmsStoreAfterTransfer then
      (t.fieldTransfer.busWrite (t.fieldTransfer.instrAddr ea) t.pc).finish fun _ u => { u with pc := ea + 1 }
    else
      (t.busWrite (t.instrAddr ea) t.pc).finish fun _ u => { u.fieldTransfer with pc := ea + 1 })

/-- JMP: the effective address, found in the old instruction space, becomes PC after the field transfer (R72). -/
def execJmp (indirect currentPage : Bool) (page : BitVec 7) (s : State) : Host.Outcome State Fault Refusal :=
  .next ((s.effectiveAddress indirect currentPage page).finish fun ea t => { t.fieldTransfer with pc := ea })

end Sys2Proof.Machine
end

