-- ==== Sys2Proof/Machine/Operate1.lean ====
section
/-! DEFINITION. Group 1 operate instructions (rules R73 to R97): the generic word, and each listed word as the micro-operations its name
spells. -/

namespace Sys2Proof.Machine

/-- Every group 1 word the listing does not name: CLA and CLL, then CMA and CML, then IAC, then the rotate (R73, R97).
The rotate code 111 leaves free values in AC and L (R74, U1). -/
def execOpr1 (cla cll cma cml : Bool) (rot : Field) (iac : Bool) (s : State) : Host.Outcome State Fault Refusal :=
  .next ((((((s.doIf cla State.clearAc).doIf cll State.clearLink).doIf cma State.complementAc).doIf cml
    State.complementLink).doIf iac State.incrementAc).rotate rot)

/-- NOP, 7000: only PC has advanced (R75). -/
def execNop1 (s : State) : Host.Outcome State Fault Refusal :=
  .next s

/-- IAC, 7001 (R76). -/
def execIac (s : State) : Host.Outcome State Fault Refusal :=
  .next s.incrementAc

/-- BSW, 7002 (R77). -/
def execBsw (s : State) : Host.Outcome State Fault Refusal :=
  .next s.byteSwap

/-- RAL, 7004 (R78). -/
def execRal (s : State) : Host.Outcome State Fault Refusal :=
  .next s.rotateLeft

/-- RTL, 7006: two RALs (R79). -/
def execRtl (s : State) : Host.Outcome State Fault Refusal :=
  .next s.rotateLeft.rotateLeft

/-- RAR, 7010 (R80). -/
def execRar (s : State) : Host.Outcome State Fault Refusal :=
  .next s.rotateRight

/-- RTR, 7012: two RARs (R81). -/
def execRtr (s : State) : Host.Outcome State Fault Refusal :=
  .next s.rotateRight.rotateRight

/-- R3L, 7014 (R82). -/
def execR3l (s : State) : Host.Outcome State Fault Refusal :=
  .next s.rotateThree

/-- CML, 7020 (R83). -/
def execCml (s : State) : Host.Outcome State Fault Refusal :=
  .next s.complementLink

/-- CMA, 7040 (R84). -/
def execCma (s : State) : Host.Outcome State Fault Refusal :=
  .next s.complementAc

/-- CIA, 7041: complement and increment (R85). -/
def execCia (s : State) : Host.Outcome State Fault Refusal :=
  .next s.complementAc.incrementAc

/-- CLL, 7100 (R86). -/
def execCll (s : State) : Host.Outcome State Fault Refusal :=
  .next s.clearLink

/-- CLL RAL, 7104 (R87). -/
def execCllRal (s : State) : Host.Outcome State Fault Refusal :=
  .next s.clearLink.rotateLeft

/-- CLL RTL, 7106 (R88). -/
def execCllRtl (s : State) : Host.Outcome State Fault Refusal :=
  .next s.clearLink.rotateLeft.rotateLeft

/-- CLL RAR, 7110 (R89). -/
def execCllRar (s : State) : Host.Outcome State Fault Refusal :=
  .next s.clearLink.rotateRight

/-- CLL RTR, 7112 (R90). -/
def execCllRtr (s : State) : Host.Outcome State Fault Refusal :=
  .next s.clearLink.rotateRight.rotateRight

/-- STL, 7120: L cleared and complemented (R91). -/
def execStl (s : State) : Host.Outcome State Fault Refusal :=
  .next s.clearLink.complementLink

/-- CLA, 7200 (R92). -/
def execCla1 (s : State) : Host.Outcome State Fault Refusal :=
  .next s.clearAc

/-- CLA IAC, 7201 (R93). -/
def execClaIac (s : State) : Host.Outcome State Fault Refusal :=
  .next s.clearAc.incrementAc

/-- GLK, 7204: AC cleared and L rotated into it (R94). -/
def execGlk (s : State) : Host.Outcome State Fault Refusal :=
  .next s.clearAc.rotateLeft

/-- STA, 7240: AC cleared and complemented (R95). -/
def execSta (s : State) : Host.Outcome State Fault Refusal :=
  .next s.clearAc.complementAc

/-- CLA CLL, 7300 (R96). -/
def execClaCll (s : State) : Host.Outcome State Fault Refusal :=
  .next s.clearAc.clearLink

end Sys2Proof.Machine
end

