-- ==== Sys2Proof/Machine/Operate2.lean ====
section
/-! DEFINITION. Group 2 operate instructions (rules R98 to R124): the generic word, and each listed word with the test its name spells. -/

namespace Sys2Proof.Machine

/-- Every group 2 word the listing does not name: the skip test, then CLA, then OSR and HLT (R98, R124). -/
def execOpr2 (cla sma sza snl sense osr hlt : Bool) (s : State) : Host.Outcome State Fault Refusal :=
  let t := (s.skipIf (s.skipTest sma sza snl sense)).doIf cla State.clearAc
  .next ((if osr then t.orSwitch else .done () t).finish fun _ u => u.doIf hlt State.requestHalt)

/-- NOP, 7400: only PC has advanced (R100). -/
def execNop2 (s : State) : Host.Outcome State Fault Refusal :=
  .next s

/-- HLT, 7402: HLTFLG set, in either mode; the panel entry is the priority network's (R101). -/
def execHlt (s : State) : Host.Outcome State Fault Refusal :=
  .next s.requestHalt

/-- OSR, 7404 (R102). -/
def execOsr (s : State) : Host.Outcome State Fault Refusal :=
  .next s.orSwitch.state

/-- SKP, 7410 (R103). -/
def execSkp (s : State) : Host.Outcome State Fault Refusal :=
  .next (s.skipIf true)

/-- SNL, 7420 (R104). -/
def execSnl (s : State) : Host.Outcome State Fault Refusal :=
  .next (s.skipIf s.l)

/-- SZL, 7430 (R105). -/
def execSzl (s : State) : Host.Outcome State Fault Refusal :=
  .next (s.skipIf (!s.l))

/-- SZA, 7440 (R106). -/
def execSza (s : State) : Host.Outcome State Fault Refusal :=
  .next (s.skipIf (s.ac == 0))

/-- SNA, 7450 (R107). -/
def execSna (s : State) : Host.Outcome State Fault Refusal :=
  .next (s.skipIf (s.ac != 0))

/-- SZA SNL, 7460 (R108). -/
def execSzaSnl (s : State) : Host.Outcome State Fault Refusal :=
  .next (s.skipIf (s.ac == 0 || s.l))

/-- SNA SZL, 7470 (R109). -/
def execSnaSzl (s : State) : Host.Outcome State Fault Refusal :=
  .next (s.skipIf (s.ac != 0 && !s.l))

/-- SMA, 7500 (R110). -/
def execSma (s : State) : Host.Outcome State Fault Refusal :=
  .next (s.skipIf (bit s.ac 0))

/-- SPA, 7510 (R111). -/
def execSpa (s : State) : Host.Outcome State Fault Refusal :=
  .next (s.skipIf (!bit s.ac 0))

/-- SMA SNL, 7520 (R112). -/
def execSmaSnl (s : State) : Host.Outcome State Fault Refusal :=
  .next (s.skipIf (bit s.ac 0 || s.l))

/-- SPA SZL, 7530 (R113). -/
def execSpaSzl (s : State) : Host.Outcome State Fault Refusal :=
  .next (s.skipIf (!bit s.ac 0 && !s.l))

/-- SMA SZA, 7540 (R114). -/
def execSmaSza (s : State) : Host.Outcome State Fault Refusal :=
  .next (s.skipIf (bit s.ac 0 || s.ac == 0))

/-- SPA SNA, 7550 (R115). -/
def execSpaSna (s : State) : Host.Outcome State Fault Refusal :=
  .next (s.skipIf (!bit s.ac 0 && s.ac != 0))

/-- SMA SZA SNL, 7560 (R116). -/
def execSmaSzaSnl (s : State) : Host.Outcome State Fault Refusal :=
  .next (s.skipIf (bit s.ac 0 || s.ac == 0 || s.l))

/-- SPA SNA SZL, 7570 (R117). -/
def execSpaSnaSzl (s : State) : Host.Outcome State Fault Refusal :=
  .next (s.skipIf (!bit s.ac 0 && s.ac != 0 && !s.l))

/-- CLA, 7600 (R118). -/
def execCla2 (s : State) : Host.Outcome State Fault Refusal :=
  .next s.clearAc

/-- LAS, 7604: CLA then OSR (R119). -/
def execLas (s : State) : Host.Outcome State Fault Refusal :=
  .next s.clearAc.orSwitch.state

/-- SZA CLA, 7640: the test sees AC before it is cleared (R120). -/
def execSzaCla (s : State) : Host.Outcome State Fault Refusal :=
  .next (s.skipIf (s.ac == 0)).clearAc

/-- SNA CLA, 7650 (R121). -/
def execSnaCla (s : State) : Host.Outcome State Fault Refusal :=
  .next (s.skipIf (s.ac != 0)).clearAc

/-- SMA CLA, 7700 (R122). -/
def execSmaCla (s : State) : Host.Outcome State Fault Refusal :=
  .next (s.skipIf (bit s.ac 0)).clearAc

/-- SPA CLA, 7710 (R123). -/
def execSpaCla (s : State) : Host.Outcome State Fault Refusal :=
  .next (s.skipIf (!bit s.ac 0)).clearAc

end Sys2Proof.Machine
end

