-- ==== Sys2Proof/Machine/Operate3.lean ====
section
/-! DEFINITION. Group 3 operate instructions (rules R125 to R134): the generic word over its closed formula, and each listed word as its
own rule states it. -/

namespace Sys2Proof.Machine

/-- Every group 3 word the listing does not name: CLA, then MQA and MQL together; bits 6, 8, 9 and 10 only delay the next
grant (R125, R134). -/
def execOpr3 (cla mqa u6 mql : Bool) (u8to10 : Field) (s : State) : Host.Outcome State Fault Refusal :=
  .next ((s.group3 cla mqa mql).delayGrantIf (u6 || u8to10 != 0))

/-- NOP, 7401: only PC has advanced (R126). -/
def execNop3 (s : State) : Host.Outcome State Fault Refusal :=
  .next s

/-- MQL, 7421 (R127). -/
def execMql (s : State) : Host.Outcome State Fault Refusal :=
  .next { s with mq := s.ac, ac := 0 }

/-- MQA, 7501 (R128). -/
def execMqa (s : State) : Host.Outcome State Fault Refusal :=
  .next { s with ac := s.ac ||| s.mq }

/-- SWP, 7521 (R129). -/
def execSwp (s : State) : Host.Outcome State Fault Refusal :=
  .next { s with ac := s.mq, mq := s.ac }

/-- CLA, 7601 (R130). -/
def execCla3 (s : State) : Host.Outcome State Fault Refusal :=
  .next s.clearAc

/-- CAM, 7621 (R131). -/
def execCam (s : State) : Host.Outcome State Fault Refusal :=
  .next { s with ac := 0, mq := 0 }

/-- ACL, 7701 (R132). -/
def execAcl (s : State) : Host.Outcome State Fault Refusal :=
  .next { s with ac := s.mq }

/-- CLA SWP, 7721 (R133). -/
def execClaSwp (s : State) : Host.Outcome State Fault Refusal :=
  .next { s with ac := s.mq, mq := 0 }

end Sys2Proof.Machine
end

