-- ==== Sys2Proof/Machine/PanelControl.lean ====
section
/-! DEFINITION. Panel mode control instructions (rules R165 to R170). The decoder gives PRS, PGO and PEX in panel mode only (R59); CPD
and SPD act in both (decision D13). -/

namespace Sys2Proof.Machine

/-- PRS: the panel status read into AC, then PNLTRP and PWRON cleared, and BTSTRP if it was read as 1 (R166). -/
def execPrs (s : State) : Host.Outcome State Fault Refusal :=
  .next { s with ac := s.panelStatus, pnltrp := false, pwron := false, btstrp := false }

/-- PGO: HLTFLG cleared (R167). -/
def execPgo (s : State) : Host.Outcome State Fault Refusal :=
  .next { s with hltflg := false }

/-- PEX: the next field transfer leaves panel mode; PWRON and PNLTRP cleared (R168). -/
def execPex (s : State) : Host.Outcome State Fault Refusal :=
  .next { s with pexff := true, pwron := false, pnltrp := false }

/-- CPD: the panel data flag cleared (R169). -/
def execCpd (s : State) : Host.Outcome State Fault Refusal :=
  .next { s with pdf := false }

/-- SPD: the panel data flag set (R170). -/
def execSpd (s : State) : Host.Outcome State Fault Refusal :=
  .next { s with pdf := true }

end Sys2Proof.Machine
end

