-- ==== Sys2Proof/Machine/Stack.lean ====
section
/-! DEFINITION. Stack operation instructions (rules R135 to R148). -/

namespace Sys2Proof.Machine

/-- PPC1: the address after the next instruction pushed; PC itself unchanged (R136, decision D11). -/
def execPpc1 (s : State) : Host.Outcome State Fault Refusal :=
  .next (s.push1 (s.pc + 1))

/-- PPC2: the address after the next instruction pushed; PC itself unchanged (R137, decision D11). -/
def execPpc2 (s : State) : Host.Outcome State Fault Refusal :=
  .next (s.push2 (s.pc + 1))

/-- PAC1: AC pushed and kept (R138). -/
def execPac1 (s : State) : Host.Outcome State Fault Refusal :=
  .next (s.push1 s.ac)

/-- PAC2: AC pushed and kept (R139). -/
def execPac2 (s : State) : Host.Outcome State Fault Refusal :=
  .next (s.push2 s.ac)

/-- RTN1: SP1 raised, the field transfer, PC popped (R140, decision D6). -/
def execRtn1 (s : State) : Host.Outcome State Fault Refusal :=
  let t := s.raiseSp1.fieldTransfer
  .next ((t.busRead (t.returnAddr s t.sp1)).finish fun v u => { u with pc := v })

/-- RTN2: SP2 raised, the field transfer, PC popped (R141, decision D6). -/
def execRtn2 (s : State) : Host.Outcome State Fault Refusal :=
  let t := s.raiseSp2.fieldTransfer
  .next ((t.busRead (t.returnAddr s t.sp2)).finish fun v u => { u with pc := v })

/-- POP1: AC popped (R142). -/
def execPop1 (s : State) : Host.Outcome State Fault Refusal :=
  let t := s.raiseSp1
  .next ((t.busRead (t.stackAddr t.sp1)).finish fun v u => { u with ac := v })

/-- POP2: AC popped (R143). -/
def execPop2 (s : State) : Host.Outcome State Fault Refusal :=
  let t := s.raiseSp2
  .next ((t.busRead (t.stackAddr t.sp2)).finish fun v u => { u with ac := v })

/-- RSP1: AC loaded from SP1 (R144). -/
def execRsp1 (s : State) : Host.Outcome State Fault Refusal :=
  .next { s with ac := s.sp1 }

/-- RSP2: AC loaded from SP2 (R145). -/
def execRsp2 (s : State) : Host.Outcome State Fault Refusal :=
  .next { s with ac := s.sp2 }

/-- LSP1: SP1 loaded from AC, AC cleared (R146). -/
def execLsp1 (s : State) : Host.Outcome State Fault Refusal :=
  .next { s with sp1 := s.ac, ac := 0 }

/-- LSP2: SP2 loaded from AC, AC cleared (R147). -/
def execLsp2 (s : State) : Host.Outcome State Fault Refusal :=
  .next { s with sp2 := s.ac, ac := 0 }

end Sys2Proof.Machine
end

