-- ==== Sys2Proof/Machine/Dispatch.lean ====
section
/-! DEFINITION. The dispatch of every instruction to its meaning: one arm per constructor of `Instr`. The state it acts on is
the one after the fetch (rule R188 step 7). -/

namespace Sys2Proof.Machine

/-- The meaning of an instruction on the state after its fetch. -/
def exec (i : Instr) (s : State) : Host.Outcome State Fault Refusal :=
  match i with
  | .and indirect currentPage page => Sys2Proof.Machine.execAnd indirect currentPage page s
  | .tad indirect currentPage page => Sys2Proof.Machine.execTad indirect currentPage page s
  | .isz indirect currentPage page => Sys2Proof.Machine.execIsz indirect currentPage page s
  | .dca indirect currentPage page => Sys2Proof.Machine.execDca indirect currentPage page s
  | .jms indirect currentPage page => Sys2Proof.Machine.execJms indirect currentPage page s
  | .jmp indirect currentPage page => Sys2Proof.Machine.execJmp indirect currentPage page s
  | .opr1 cla cll cma cml rot iac => Sys2Proof.Machine.execOpr1 cla cll cma cml rot iac s
  | .nop1 => Sys2Proof.Machine.execNop1 s
  | .iac => Sys2Proof.Machine.execIac s
  | .bsw => Sys2Proof.Machine.execBsw s
  | .ral => Sys2Proof.Machine.execRal s
  | .rtl => Sys2Proof.Machine.execRtl s
  | .rar => Sys2Proof.Machine.execRar s
  | .rtr => Sys2Proof.Machine.execRtr s
  | .r3l => Sys2Proof.Machine.execR3l s
  | .cml => Sys2Proof.Machine.execCml s
  | .cma => Sys2Proof.Machine.execCma s
  | .cia => Sys2Proof.Machine.execCia s
  | .cll => Sys2Proof.Machine.execCll s
  | .cllRal => Sys2Proof.Machine.execCllRal s
  | .cllRtl => Sys2Proof.Machine.execCllRtl s
  | .cllRar => Sys2Proof.Machine.execCllRar s
  | .cllRtr => Sys2Proof.Machine.execCllRtr s
  | .stl => Sys2Proof.Machine.execStl s
  | .cla1 => Sys2Proof.Machine.execCla1 s
  | .claIac => Sys2Proof.Machine.execClaIac s
  | .glk => Sys2Proof.Machine.execGlk s
  | .sta => Sys2Proof.Machine.execSta s
  | .claCll => Sys2Proof.Machine.execClaCll s
  | .opr2 cla sma sza snl sense osr hlt => Sys2Proof.Machine.execOpr2 cla sma sza snl sense osr hlt s
  | .nop2 => Sys2Proof.Machine.execNop2 s
  | .hlt => Sys2Proof.Machine.execHlt s
  | .osr => Sys2Proof.Machine.execOsr s
  | .skp => Sys2Proof.Machine.execSkp s
  | .snl => Sys2Proof.Machine.execSnl s
  | .szl => Sys2Proof.Machine.execSzl s
  | .sza => Sys2Proof.Machine.execSza s
  | .sna => Sys2Proof.Machine.execSna s
  | .szaSnl => Sys2Proof.Machine.execSzaSnl s
  | .snaSzl => Sys2Proof.Machine.execSnaSzl s
  | .sma => Sys2Proof.Machine.execSma s
  | .spa => Sys2Proof.Machine.execSpa s
  | .smaSnl => Sys2Proof.Machine.execSmaSnl s
  | .spaSzl => Sys2Proof.Machine.execSpaSzl s
  | .smaSza => Sys2Proof.Machine.execSmaSza s
  | .spaSna => Sys2Proof.Machine.execSpaSna s
  | .smaSzaSnl => Sys2Proof.Machine.execSmaSzaSnl s
  | .spaSnaSzl => Sys2Proof.Machine.execSpaSnaSzl s
  | .cla2 => Sys2Proof.Machine.execCla2 s
  | .las => Sys2Proof.Machine.execLas s
  | .szaCla => Sys2Proof.Machine.execSzaCla s
  | .snaCla => Sys2Proof.Machine.execSnaCla s
  | .smaCla => Sys2Proof.Machine.execSmaCla s
  | .spaCla => Sys2Proof.Machine.execSpaCla s
  | .opr3 cla mqa u6 mql u8to10 => Sys2Proof.Machine.execOpr3 cla mqa u6 mql u8to10 s
  | .nop3 => Sys2Proof.Machine.execNop3 s
  | .mql => Sys2Proof.Machine.execMql s
  | .mqa => Sys2Proof.Machine.execMqa s
  | .swp => Sys2Proof.Machine.execSwp s
  | .cla3 => Sys2Proof.Machine.execCla3 s
  | .cam => Sys2Proof.Machine.execCam s
  | .acl => Sys2Proof.Machine.execAcl s
  | .claSwp => Sys2Proof.Machine.execClaSwp s
  | .ppc1 => Sys2Proof.Machine.execPpc1 s
  | .ppc2 => Sys2Proof.Machine.execPpc2 s
  | .pac1 => Sys2Proof.Machine.execPac1 s
  | .pac2 => Sys2Proof.Machine.execPac2 s
  | .rtn1 => Sys2Proof.Machine.execRtn1 s
  | .rtn2 => Sys2Proof.Machine.execRtn2 s
  | .pop1 => Sys2Proof.Machine.execPop1 s
  | .pop2 => Sys2Proof.Machine.execPop2 s
  | .rsp1 => Sys2Proof.Machine.execRsp1 s
  | .rsp2 => Sys2Proof.Machine.execRsp2 s
  | .lsp1 => Sys2Proof.Machine.execLsp1 s
  | .lsp2 => Sys2Proof.Machine.execLsp2 s
  | .ion => Sys2Proof.Machine.execIon s
  | .iof => Sys2Proof.Machine.execIof s
  | .rtf => Sys2Proof.Machine.execRtf s
  | .sgt => Sys2Proof.Machine.execSgt s
  | .caf => Sys2Proof.Machine.execCaf s
  | .wsr => Sys2Proof.Machine.execWsr s
  | .gcf => Sys2Proof.Machine.execGcf s
  | .skon => Sys2Proof.Machine.execSkon s
  | .srq => Sys2Proof.Machine.execSrq s
  | .gtf => Sys2Proof.Machine.execGtf s
  | .pr0 => Sys2Proof.Machine.execPr0 s
  | .pr1 => Sys2Proof.Machine.execPr1 s
  | .pr2 => Sys2Proof.Machine.execPr2 s
  | .pr3 => Sys2Proof.Machine.execPr3 s
  | .prs => Sys2Proof.Machine.execPrs s
  | .pgo => Sys2Proof.Machine.execPgo s
  | .pex => Sys2Proof.Machine.execPex s
  | .cpd => Sys2Proof.Machine.execCpd s
  | .spd => Sys2Proof.Machine.execSpd s
  | .cdf x => Sys2Proof.Machine.execCdf x s
  | .cif x => Sys2Proof.Machine.execCif x s
  | .cdfCif x => Sys2Proof.Machine.execCdfCif x s
  | .rdf => Sys2Proof.Machine.execRdf s
  | .rif => Sys2Proof.Machine.execRif s
  | .rib => Sys2Proof.Machine.execRib s
  | .rmf => Sys2Proof.Machine.execRmf s
  | .iot device operation => Sys2Proof.Machine.execIot device operation s
  | .reserved6200 => Sys2Proof.Machine.execReserved6200 s
  | .reserved6210 => Sys2Proof.Machine.execReserved6210 s
  | .reserved6220 => Sys2Proof.Machine.execReserved6220 s
  | .reserved6230 => Sys2Proof.Machine.execReserved6230 s
  | .reserved6240 => Sys2Proof.Machine.execReserved6240 s
  | .reserved6250 => Sys2Proof.Machine.execReserved6250 s
  | .reserved6260 => Sys2Proof.Machine.execReserved6260 s
  | .reserved6270 => Sys2Proof.Machine.execReserved6270 s
  | .reserved6204 => Sys2Proof.Machine.execReserved6204 s
  | .reserved6254 => Sys2Proof.Machine.execReserved6254 s
  | .reserved6264 => Sys2Proof.Machine.execReserved6264 s
  | .reserved6274 => Sys2Proof.Machine.execReserved6274 s
  | .reserved6247 => Sys2Proof.Machine.execReserved6247 s
  | .reserved6257 => Sys2Proof.Machine.execReserved6257 s
  | .reserved6267 => Sys2Proof.Machine.execReserved6267 s
  | .reserved6277 => Sys2Proof.Machine.execReserved6277 s

end Sys2Proof.Machine
end

