-- ==== Sys2Proof/Machine/Timing.lean ====
section
/-! DEFINITION. The minor-cycle table (rule R231): the cycles an instruction takes with no wait state, where the data sheet
gives a count. Nothing else in the model depends on it (R232). -/

namespace Sys2Proof.Machine

/-- The three columns of the memory reference rows: direct, indirect, indirect through an autoindex location (R231). -/
def State.addressCycles (s : State) (indirect currentPage : Bool) (page : BitVec 7) (direct pointer auto : Nat) : Nat :=
  if !indirect then direct else if autoindex (s.instructionAddress currentPage page) then auto else pointer

/-- Minor cycles of one instruction, `s` being the state after its fetch and `t` the one after its execution; none where
no count is given (R231, N9). A combined operate word takes the count of its slowest listed part (log entry 14). -/
def minorCycles (i : Instr) (s t : State) : Option Nat :=
  match i with
  | .and i p a | .tad i p a | .dca i p a | .jms i p a => some (s.addressCycles i p a 7 10 12)
  | .isz i p a => some (s.addressCycles i p a 9 12 14 + if t.pc = s.pc then 0 else 2)
  | .jmp i p a => some (s.addressCycles i p a 4 7 9)
  | .opr1 _ _ _ _ rot _ =>
    if rot = 7 then none else some (if rot = 1 ∨ rot = 3 ∨ rot = 5 then 8 else 6)
  | .nop1 | .iac | .ral | .rar | .r3l | .cml | .cma | .cia | .cll | .cllRal | .cllRar | .stl | .cla1 | .claIac | .glk
  | .sta | .claCll => some 6
  | .bsw | .rtl | .rtr | .cllRtl | .cllRtr => some 8
  | .opr2 _ _ _ _ _ osr _ => some (if osr then 8 else 7)
  | .nop2 | .hlt | .skp | .snl | .szl | .sza | .sna | .szaSnl | .snaSzl | .sma | .spa | .smaSnl | .spaSzl | .smaSza
  | .spaSna | .smaSzaSnl | .spaSnaSzl | .cla2 | .szaCla | .snaCla | .smaCla | .spaCla => some 7
  | .osr | .las => some 8
  | .opr3 _ _ _ _ _ | .nop3 | .mql | .mqa | .swp | .cla3 | .cam | .acl | .claSwp => some 6
  | .ppc1 | .ppc2 | .pac1 | .pac2 | .rtn1 | .rtn2 | .pop1 | .pop2 | .rsp1 | .rsp2 | .lsp1 | .lsp2 => none
  | .ion | .iof => some 6
  | .rtf => some 8
  | .sgt | .caf | .wsr => some 7
  | .gcf => some 9
  | .skon | .srq => some 7
  | .gtf => some 9
  | .pr0 | .pr1 | .pr2 | .pr3 => some 6
  | .prs => some 8
  | .pgo | .pex => some 6
  | .cpd | .spd => some 5
  | .cdf _ | .cif _ | .cdfCif _ | .rdf | .rif | .rmf => some 6
  | .rib => some 9
  | .iot device operation => some (if (s.deviceAnswer (0b110#3 ++ device ++ operation)).c1Low then 10 else 9)
  | .reserved6200 | .reserved6210 | .reserved6220 | .reserved6230 | .reserved6240 | .reserved6250 | .reserved6260
  | .reserved6270 | .reserved6204 | .reserved6254 | .reserved6264 | .reserved6274 | .reserved6247 | .reserved6257
  | .reserved6267 | .reserved6277 => none

end Sys2Proof.Machine
end

