-- ==== Sys2Proof/Machine/Step.lean ====
section
/-! DEFINITION. One step of the machine: one pass of `Boundary()` (rule R188). The pin changes and DMA transfers listed for
the boundary are made; then the priority network holds the processor, enters panel mode, grants a device interrupt, or
fetches and executes one instruction. Every part is defined in another file of this folder. -/

namespace Sys2Proof.Machine

/-- The instruction in IR, read under the present mode (R52, R59). -/
def State.current (s : State) : Instr :=
  decodeWord s.ctrlff s.ir

/-- Fetch and execute one instruction (R188 step 7). A fetch that is not acknowledged waits. -/
def State.runInstruction (s : State) : Host.Outcome State Fault Refusal :=
  match s.fetch with
  | .hung t => .next (t.spend none)
  | .done _ t =>
    match exec t.current t with
    | .next u => .next (u.latchTemp.spendIfDone (minorCycles t.current t u))
    | .fault f => .fault f
    | .refused r => .refused r

/-- One step: one boundary and what it decides (R188). A device interrupt grant takes 4 minor cycles; a panel entry has
no stated count (R231). -/
def step (s : State) : Host.Outcome State Fault Refusal :=
  match s.boundary.decision with
  | .hold => .next s.boundary
  | .panelEntry => .next (s.boundary.panelEntry.spend none)
  | .interruptGrant => .next (s.boundary.interruptGrant.spendIfDone (some 4))
  | .fetch => s.boundary.runInstruction

/-- The state with an instruction word put where the next fetch reads: the word at PC in the instruction space (R38,
R188). The word is 12 bits; what a row given in whole bytes has above them is dropped. -/
def State.withFetchWord (s : State) (nbits w : Nat) : State :=
  { s with mem := s.mem.set (s.instrAddr s.pc).key (BitVec.ofNat 12 (w % 2 ^ nbits)) }

end Sys2Proof.Machine
end

