-- ==== Sys2Proof/Safety.lean ====
section
/-! DEFINITION. The terms in which claims speak of a good state and a good step. -/

namespace Sys2Proof

/-! ### Classes of instructions that claims name -/

/-- The four instructions that make the field transfer (R63). -/
def Instr.transfersField : Instr → Bool
  | .jmp _ _ _ | .jms _ _ _ | .rtn1 | .rtn2 => true
  | _ => false

/-- The 16 internal IOT words without a definition (R184). -/
def Instr.isReserved : Instr → Bool
  | .reserved6200 | .reserved6210 | .reserved6220 | .reserved6230 | .reserved6240 | .reserved6250 | .reserved6260
  | .reserved6270 | .reserved6204 | .reserved6254 | .reserved6264 | .reserved6274 | .reserved6247 | .reserved6257
  | .reserved6267 | .reserved6277 => true
  | _ => false

/-- The stack operation instructions (R136 to R147). -/
def Instr.isStack : Instr → Bool
  | .ppc1 | .ppc2 | .pac1 | .pac2 | .rtn1 | .rtn2 | .pop1 | .pop2 | .rsp1 | .rsp2 | .lsp1 | .lsp2 => true
  | _ => false

/-- A group 1 word with rotate code 111 (R74). -/
def Instr.hasUndefinedRotate : Instr → Bool
  | .opr1 _ _ _ _ r _ => r == 7
  | _ => false

/-- The writers of MQ: group 3 words with MQL (R12, R19). -/
def Instr.writesMq : Instr → Bool
  | .opr3 _ _ _ m _ => m
  | .mql | .swp | .cam | .claSwp => true
  | _ => false

/-- The writers of SP1 (R19). -/
def Instr.movesSp1 : Instr → Bool
  | .ppc1 | .pac1 | .rtn1 | .pop1 | .lsp1 => true
  | _ => false

/-- The writers of SP2 (R19). -/
def Instr.movesSp2 : Instr → Bool
  | .ppc2 | .pac2 | .rtn2 | .pop2 | .lsp2 => true
  | _ => false

/-- The instructions that load IB (R21). -/
def Instr.loadsIb : Instr → Bool
  | .cif _ | .cdfCif _ | .rtf | .rmf => true
  | _ => false

/-- The instructions that load DF (R23). -/
def Instr.loadsDf : Instr → Bool
  | .cdf _ | .cdfCif _ | .rtf | .rmf => true
  | _ => false

/-- The instructions whose execution makes bus operations: memory, stack, switch register or device (R64 to R72, R102,
R135, R155, R180). -/
def Instr.usesBus : Instr → Bool
  | .and _ _ _ | .tad _ _ _ | .isz _ _ _ | .dca _ _ _ | .jms _ _ _ => true
  | .jmp indirect _ _ => indirect
  | .ppc1 | .ppc2 | .pac1 | .pac2 | .rtn1 | .rtn2 | .pop1 | .pop2 => true
  | .osr | .las | .wsr | .iot _ _ => true
  | .opr2 _ _ _ _ _ orSwitch _ => orSwitch
  | _ => false

/-- The writers of GT: RTF and CAF (R32), and in this model the reserved words, which may change any flag (D3; log
entry 12). -/
def Instr.writesGt (i : Instr) : Bool :=
  match i with
  | .rtf | .caf => true
  | i => i.isReserved

end Sys2Proof

namespace Sys2Proof.Machine

/-- "IIFF = 0 implies IB = IF" (R21). -/
def State.FieldsAgree (s : State) : Prop :=
  s.iiff = false → s.ib = s.ifr

/-- While RESET is low the registers and flags that reset initialises have their reset values (R212). -/
def State.HeldInReset (s : State) : Prop :=
  s.pins.resetLow = true →
    s.ac = 0 ∧ s.l = false ∧ s.mq = 0 ∧ s.pc = 0o7777 ∧ s.ifr = 0 ∧ s.ib = 0 ∧ s.df = 0 ∧ s.isf = 0 ∧ s.dsf = 0 ∧
      s.ieff = false ∧ s.iiff = false ∧ s.gt = false ∧ s.ctrlff = false ∧ s.hltflg = false ∧ s.pnltrp = false ∧
      s.btstrp = false ∧ s.pexff = false ∧ s.nogrant = false ∧ s.intgntff = false ∧ s.running = true ∧
      s.pwron = s.platform.strtupLow ∧ s.waiting = none

/-- The machine's invariant: memory in canonical form, the fields in agreement, reset held. -/
structure State.Inv (s : State) : Prop where
  memory : s.mem.wf = true
  fields : s.FieldsAgree
  reset : s.HeldInReset

/-- The outcome is a next state: neither a fault nor a refusal. -/
def Completes (o : Host.Outcome State Fault Refusal) : Prop :=
  ∃ t, o = .next t

/-- Every word of panel memory reads in `t` as it read in `s`, but for words the DMA device is listed to write. -/
def PanelMemoryKept (s t : State) : Prop :=
  ∀ f o, ¬ s.dmaMayWrite ⟨.panel, f, o⟩ → t.read ⟨.panel, f, o⟩ = s.read ⟨.panel, f, o⟩

/-- The processor is free to serve a request or fetch: no reset, no bus operation waiting, no DMA, not halted (R188,
R189). -/
def State.Serving (s : State) : Prop :=
  s.pins.resetLow = false ∧ s.waiting = none ∧ s.pins.dmareqLow = false ∧ s.running = true

/-- The next `n` bus operations are acknowledged, at once or after a wait (R46, R51). -/
abbrev State.Acknowledges (s : State) (n : Nat) : Prop :=
  Ack.never ∉ s.env.acks.take n

/-- What `gaps` gaps for DMA and `n` acknowledged bus operations do to the record of the environment, when nothing
else is sent out: the lists are used up, the waits added, the words that DMA read recorded. -/
structure EnvAfter (gaps n : Nat) (s t : State) : Prop where
  moves : t.env.moves = s.env.moves
  answers : t.env.answers = s.env.answers
  switches : t.env.switches = s.env.switches
  dma : t.env.dma = s.env.dma.drop gaps
  acks : t.env.acks = s.env.acks.drop n
  waited : t.env.waited = s.env.waited + ((s.env.acks.take n).map Ack.wait).sum
  bus : ∃ ev, t.env.bus = ev ++ s.env.bus ∧ ∀ e ∈ ev, ∃ a v, e = .dmaRead a v

/-- What the transfers of one DMA grant do to memory (R50): a RAM word holds what was written to it last, every word not
written is as before. -/
structure DmaMoves (gap : List DmaTransfer) (s t : State) : Prop where
  kept : ∀ a, (∀ v, DmaTransfer.write a v ∉ gap) → t.read a = s.read a
  written : ∀ a v pre post, gap = pre ++ .write a v :: post → (∀ w, DmaTransfer.write a w ∉ post) →
    s.mem.wf = true → s.platform.kindOf a = .ram → t.read a = v

/-- Nothing outside the processor acts at the next boundary: no pin change, no DMA transfer. -/
def State.Quiet (s : State) : Prop :=
  s.env.moves = [] ∧ s.env.dma = []

/-- The word that finding an operand stores to: the pointer, when it is an autoindex location (R64). -/
def State.pointerStored (s : State) (indirect currentPage : Bool) (page : BitVec 7) : List Addr :=
  if indirect && autoindex (s.instructionAddress currentPage page) then
    [s.instrAddr (s.instructionAddress currentPage page)]
  else []

/-- The gaps for DMA in finding an effective address: one before the pointer is read (R64). -/
def State.pointerGaps (indirect : Bool) : Nat :=
  if indirect then 1 else 0

/-- The acknowledgements used in finding an effective address: the pointer's read, and its write at an autoindex
location (R64). -/
def State.pointerAcks (s : State) (indirect currentPage : Bool) (page : BitVec 7) : Nat :=
  if indirect then (if autoindex (s.instructionAddress currentPage page) then 2 else 1) else 0

/-- An autoindex pointer holds in `t` the effective address it gave, its old contents plus one (R64), where it is RAM,
no DMA transfer is listed to write it and it is not itself a word the instruction stores to afterwards. -/
def PointerAdvanced (stored : List Addr) (s t : State) (indirect currentPage : Bool) (page : BitVec 7) : Prop :=
  ∀ b ∈ s.pointerStored indirect currentPage page, s.mem.wf = true → s.platform.kindOf b = .ram → ¬ s.dmaMayWrite b →
    b ∉ stored → t.read b = (s.effectiveAddress indirect currentPage page).getD 0 ∧ t.read b = s.read b + 1

/-- The word a JMS stores its return address in (R71): in the instruction space after the field transfer, or before it
where the platform says so. -/
def State.returnSlot (s : State) (indirect currentPage : Bool) (page : BitVec 7) : Addr :=
  let ea := (s.effectiveAddress indirect currentPage page).getD 0
  let t := (s.effectiveAddress indirect currentPage page).state
  if t.platform.jmsStoreAfterTransfer then t.fieldTransfer.instrAddr ea else t.instrAddr ea

/-- The first `k` of the next bus operations are acknowledged and the one after them never is (R46, U6). -/
abbrev State.HangsAfter (s : State) (k : Nat) : Prop :=
  s.Acknowledges k ∧ s.env.acks[k]? = some .never

/-- The state in which the operation after `k` acknowledged ones waits: their waits are recorded, nothing else is done
(R46, R51). -/
def State.heldAfter (s : State) (k : Nat) (op : BusOp) : State :=
  { s with
    env := { s.env with
      acks := s.env.acks.drop (k + 1), waited := s.env.waited + ((s.env.acks.take k).map Ack.wait).sum }
    waiting := some op }

/-- The state in which an operation waits, the gap before it past (R46, R50). -/
def State.heldIn (s : State) (op : BusOp) : State :=
  s.dmaGap.heldAfter 0 op

/-- The two states differ in nothing but words of panel memory. -/
def AgreeButPanelMemory (s t : State) : Prop :=
  t = { s with mem := t.mem } ∧ ∀ f o, t.read ⟨.main, f, o⟩ = s.read ⟨.main, f, o⟩

/-- Every word but the stored ones reads in `t` as it read in `s`, but for words the DMA device is listed to write. -/
def MemoryKeptExcept (stored : List Addr) (s t : State) : Prop :=
  ∀ a, a ∉ stored → ¬ s.dmaMayWrite a → t.read a = s.read a

end Sys2Proof.Machine
end

