-- ==== Sys2Proof/Certificates/Slice0/Obligations.lean ====
section
/-! DEFINITION. The statements for the provers. Each says which rule of spec/ it formalises, or that it is derived and
from what. In all of them `s` is any state, also one that no run reaches; in a statement about `exec`, `s` is the state
after the fetch, so its PC is the address after the instruction and its OL the address of the instruction; TEMP takes its
free value in the step around `exec`, not in `exec` (log entry 24). -/

open Sys2Proof Sys2Proof.Machine

/-! ### Encoding -/

/-- Derived from R52 to R59: decoding the word of a well-formed instruction, in a mode where the word means it, gives
the instruction back, for every constructor and every operand. -/
def Obligations.DecodeOfEncodeIsTheInstruction : Prop :=
  ∀ (panel : Bool) (i : Instr), i.wellFormed = true → i.inMode panel = true → decodeWord panel (encode i) = i

/-- Derived from R52 and R60: the decoder answers an instruction exactly for the numbers of twelve bits, the
instruction is well formed and belongs to the mode, and its word is the number decoded. -/
def Obligations.EveryTwelveBitWordDecodesToItsOwnInstruction : Prop :=
  ∀ (panel : Bool) (n : Nat),
    (n < 4096 → ∃ i, decode panel n = .ok i ∧ (encode i).toNat = n ∧ i.wellFormed = true ∧ i.inMode panel = true) ∧
    (4096 ≤ n → decode panel n = .error .notTwelveBits)

/-- Sanity, from the encodings of R53 to R58: words written out by hand decode to their instructions. -/
def Obligations.HandWrittenWordsDecode : Prop :=
  decodeWord false 0b001_1_0_0001000 = .tad true false 8 ∧ decodeWord false 0b100_0_1_1101000 = .jms false true 104 ∧
  decodeWord false 0b1110_0010_000_1 = .cia ∧ decodeWord false 0b1110_1100_011_1 = .opr1 true true false false 3 true ∧
  decodeWord false 0b1111_0101_000_0 = .smaSnl ∧ decodeWord false 0b1111_1010_001_0 = .opr2 true false true false false false true ∧
  decodeWord false 0b1111_0101_000_1 = .swp ∧ decodeWord false 0b110_010_010_101 = .rtn1 ∧
  decodeWord false 0b110_010_101_011 = .cdfCif 5 ∧ decodeWord false 0b110_010_101_110 = .gcf ∧
  decodeWord false 0b110_000_011_001 = .iot 3 1 ∧ decodeWord false 0b110_010_111_000 = .reserved6270

/-- Derived from R59 and R157, R165: the words 6000, 6003 and 6004 mean SKON, SRQ, GTF in main mode and PRS, PGO, PEX
in panel mode, and every other word means one instruction in both modes. -/
def Obligations.ThreeWordsDependOnTheMode : Prop :=
  (decodeWord false 0o6000 = .skon ∧ decodeWord true 0o6000 = .prs ∧ decodeWord false 0o6003 = .srq ∧
    decodeWord true 0o6003 = .pgo ∧ decodeWord false 0o6004 = .gtf ∧ decodeWord true 0o6004 = .pex) ∧
  ∀ w : Word, w ≠ 0o6000 → w ≠ 0o6003 → w ≠ 0o6004 → decodeWord false w = decodeWord true w

/-! ### Invariants and the whole machine -/

/-- The reset state meets the invariant. -/
def Obligations.ResetMeetsTheInvariant : Prop :=
  State.reset.Inv

/-- Derived from R21, R212 and the canonical form of memory: every step from any state that meets the invariant keeps
it. -/
def Obligations.EveryStepKeepsTheInvariant : Prop :=
  ∀ s t, s.Inv → step s = .next t → t.Inv

/-- Derived from R187: "The 6120 has no synchronous exception that aborts an instruction": every instruction, with any
operands, in any state, has a next state, and it is not left waiting where its bus operations (four at most) are
acknowledged. That the 16 reserved words, the "Do Not Use" words and accesses to absent memory complete is the model's
choice (log entries 12, 11 and 7): R60 with D3, R74 with U1 and R46 with U6 would have a model refuse them. -/
def Obligations.EveryInstructionCompletes : Prop :=
  ∀ (i : Instr) (s : State), Completes (exec i s) ∧
    ∀ t, exec i s = .next t → s.Acknowledges 4 → t.waiting = s.waiting

/-- Derived from R46, R187 and U6: every step has a next state, a hang included, and an operation that is never
acknowledged is left waiting, with nothing done that comes after it. It is said of the fetch; of the store of a panel
entry, of a reset released with STRTUP low and of an interrupt grant; of every bus operation of every instruction that
has any: the pointer's read and write-back in all six memory reference instructions, the operand's operation after
them, the write-back of ISZ, the stack, the switch register, the device; every other instruction makes no bus
operation. Waiting, the machine makes no progress until RESET. That the model never refuses is its choice (log entries
7, 11 and 12), and so is what is kept of a sequence that hangs (log entry 15); the rules say only that the processor
"stays in that bus operation". -/
def Obligations.AnUnacknowledgedOperationWaitsForReset : Prop :=
  ∀ s : State, Completes (step s) ∧
    (let b := s.boundary
     b.HangsAfter 0 →
      (b.decision = .fetch → step s = .next { b.heldAfter 0 (.fetch (b.instrAddr b.pc)) with
        ol := b.pc, nogrant := false, untimed := b.untimed + 1 }) ∧
      (b.decision = .panelEntry → step s = .next { b.heldAfter 0 (.write ⟨.panel, 0, 0⟩ b.pc) with
        ctrlff := true, fz := true, pdf := false, untimed := b.untimed + 1 }) ∧
      (b.decision = .interruptGrant → step s = .next { b.heldAfter 0 (.write ⟨.main, 0, 0⟩ b.pc) with
        untimed := b.untimed + 1 })) ∧
    (s.HangsAfter 0 → s.pins.resetLow = true → s.platform.strtupLow = true →
      s.movePin ⟨.reset, false⟩ = { s.heldAfter 0 (.write ⟨.panel, 0, 0⟩ s.pc) with
        ctrlff := true, fz := true, pdf := false, clocks := s.clocks + 11, untimed := s.untimed + 1,
        pins := { s.pins with resetLow := false } }) ∧
    (∀ (p : Bool) (a : BitVec 7),
      let ia := s.instructionAddress p a
      let x := s.instrAddr ia
      ∀ i ∈ [Instr.and true p a, .tad true p a, .isz true p a, .dca true p a, .jms true p a, .jmp true p a],
        (s.HangsAfter 0 → exec i s = .next (s.heldIn (.read x))) ∧
        (s.HangsAfter 1 → 8 ≤ ia.toNat ∧ ia.toNat ≤ 15 →
          exec i s = .next (s.dmaGap.heldAfter 1 (.write x (s.dmaGap.read x + 1))))) ∧
    (∀ (i p : Bool) (a : BitVec 7) (ea : Word) (t : State), s.effectiveAddress i p a = .done ea t →
      let b := if i then t.dataAddr ea else t.instrAddr ea
      (t.HangsAfter 0 →
        (∀ j ∈ [Instr.and i p a, .tad i p a, .isz i p a], exec j s = .next (t.heldIn (.read b))) ∧
        exec (.dca i p a) s = .next (t.heldIn (.write b s.ac)) ∧
        exec (.jms i p a) s = .next (if s.platform.jmsStoreAfterTransfer then
          t.fieldTransfer.heldIn (.write (t.fieldTransfer.instrAddr ea) s.pc)
          else t.heldIn (.write (t.instrAddr ea) s.pc))) ∧
      (t.HangsAfter 1 →
        exec (.isz i p a) s = .next (t.dmaGap.heldAfter 1 (.write b (t.dmaGap.read b + 1))))) ∧
    (s.HangsAfter 0 →
      let main : Bool := !s.ctrlff || s.pexff || !s.platform.rtnMainStackOnlyAfterPex
      let space : Space := if main then .main else .panel
      exec .ppc1 s = .next (s.heldIn (.write (s.stackAddr s.sp1) (s.pc + 1))) ∧
      exec .ppc2 s = .next (s.heldIn (.write (s.stackAddr s.sp2) (s.pc + 1))) ∧
      exec .pac1 s = .next (s.heldIn (.write (s.stackAddr s.sp1) s.ac)) ∧
      exec .pac2 s = .next (s.heldIn (.write (s.stackAddr s.sp2) s.ac)) ∧
      exec .pop1 s = .next { s.heldIn (.read (s.stackAddr (s.sp1 + 1))) with sp1 := s.sp1 + 1 } ∧
      exec .pop2 s = .next { s.heldIn (.read (s.stackAddr (s.sp2 + 1))) with sp2 := s.sp2 + 1 } ∧
      exec .rtn1 s = .next { s.fieldTransfer.heldIn (.read ⟨space, 0, s.sp1 + 1⟩) with sp1 := s.sp1 + 1 } ∧
      exec .rtn2 s = .next { s.fieldTransfer.heldIn (.read ⟨space, 0, s.sp2 + 1⟩) with sp2 := s.sp2 + 1 } ∧
      exec .osr s = .next (s.heldIn (.switchRead s.df)) ∧
      exec .las s = .next { s.heldIn (.switchRead s.df) with ac := 0 } ∧
      (∀ cla sma sza snl sense hlt : Bool, ∃ t, exec (.opr2 cla sma sza snl sense false false) s = .next t ∧
        exec (.opr2 cla sma sza snl sense true hlt) s = .next (t.heldIn (.switchRead s.df))) ∧
      exec .wsr s = .next (s.heldIn (.switchWrite s.df s.ac)) ∧
      ∀ (device : BitVec 6) (op : Field),
        exec (.iot device op) s = .next (s.heldIn (.iot (encode (.iot device op)) s.df s.ac))) ∧
    (∀ (i : Instr) (t : State), i.usesBus = false → exec i s = .next t →
      t.waiting = s.waiting ∧ t.env.acks = s.env.acks) ∧
    (∀ t, s.waiting ≠ none → (∀ m ∈ s.env.moves.headD [], m.pin ≠ .reset) → step s = .next t →
      t.waiting = s.waiting ∧ t.pc = s.pc ∧ t.mem = s.mem)

/-- Derived from R206: an instruction executed in main mode leaves the machine in main mode and every word of panel
memory as it was, but for words the DMA device writes. That the 16 reserved words keep main mode is the model's
reading of R206 (log entry 12). -/
def Obligations.MainModeCannotReachPanelMemory : Prop :=
  ∀ (i : Instr) (s t : State), s.ctrlff = false → exec i s = .next t → t.ctrlff = false ∧ PanelMemoryKept s t

/-- Derived from R206: with no DMA, what an instruction does in main mode does not depend on panel memory. -/
def Obligations.MainModeLearnsNothingOfPanelMemory : Prop :=
  ∀ (i : Instr) (s s' t : State), s.ctrlff = false → s.env.dma = [] → s.mem.wf = true → s'.mem.wf = true →
    AgreeButPanelMemory s s' → exec i s = .next t → ∃ t', exec i s' = .next t' ∧ AgreeButPanelMemory t t'

/-- Derived from R27, R191, R206 and R213: a step that takes the machine from main to panel mode is a granted panel
request, or follows a reset released with STRTUP low. -/
def Obligations.PanelModeIsEnteredOnlyByARequestOrAReset : Prop :=
  ∀ s t, s.ctrlff = false → step s = .next t → t.ctrlff = true →
    (s.boundary.decision = .panelEntry ∧ s.boundary.panelGrantable = true) ∨
      (s.platform.strtupLow = true ∧ ∃ m ∈ s.env.moves.headD [], m.pin = .reset ∧ m.low = false)

/-- Derived from R27 and R63: an instruction that leaves panel mode is a JMP, JMS, RTN1 or RTN2 with a PEX pending,
and it delays the next grant; the reserved words alone may also do so (log entry 12). -/
def Obligations.PanelModeIsLeftOnlyByAPendingExit : Prop :=
  ∀ (i : Instr) (s t : State), s.ctrlff = true → exec i s = .next t → t.ctrlff = false →
    i.isReserved = false → i.transfersField = true ∧ s.pexff = true ∧ t.pexff = false ∧ t.nogrant = true

/-- Derived from R20 and R63: IF changes only by a JMP, JMS, RTN1 or RTN2, which, unless it is left waiting for ACK,
loads it from IB and clears IIFF; no other instruction changes IF. -/
def Obligations.InstructionFieldChangesOnlyByFieldTransfer : Prop :=
  ∀ (i : Instr) (s t : State), exec i s = .next t →
    if i.transfersField then t.waiting = none → t.ifr = s.ib ∧ t.ib = s.ib ∧ t.iiff = false ∧ t.fz = (s.fz && !s.iiff)
    else t.ifr = s.ifr

/-- Derived from R12, R14, R19, R22 to R24, R30, R32 and R203: which instructions can write MQ, SP1, SP2, IB, DF and
GT; no instruction, HLT included, changes RUNHLT, and none writes ISF, DSF, the pins or the platform. For the 16
reserved words it is the model's choice (log entry 12): they keep all of these but GT, and `Instr.writesGt` therefore
exempts them beside the listed writers of R32. -/
def Obligations.RegistersHaveOnlyTheirListedWriters : Prop :=
  ∀ (i : Instr) (s t : State), exec i s = .next t →
    (i.writesMq = false → t.mq = s.mq) ∧ (i.movesSp1 = false → t.sp1 = s.sp1) ∧
    (i.movesSp2 = false → t.sp2 = s.sp2) ∧ (i.loadsIb = false → t.ib = s.ib) ∧ (i.loadsDf = false → t.df = s.df) ∧
    (i.writesGt = false → t.gt = s.gt) ∧ t.isf = s.isf ∧ t.dsf = s.dsf ∧ t.running = s.running ∧ t.pins = s.pins ∧
    t.platform = s.platform

/-! ### The step -/

/-- Derived from R188 step 7 with R13, R15, R16, R17 and R190: where the network decides to fetch and the fetch is
acknowledged, the step runs the instruction that the word at PC decodes to, on the state with OL, IR and PC as the fetch
leaves them and the grant delay used up; TEMP holds a free value afterwards (log entry 24), and the record of time is
all else that is added, two clock periods a minor cycle. -/
def Obligations.StepRunsTheDecodedInstruction : Prop :=
  ∀ (s t : State) (i : Instr), s.boundary.decision = .fetch → s.boundary.Acknowledges 1 →
    decodeWord s.boundary.ctrlff (s.boundary.read (s.boundary.instrAddr s.boundary.pc)) = i →
    let f : State := { s.boundary with
      ol := s.boundary.pc
      ir := s.boundary.read (s.boundary.instrAddr s.boundary.pc)
      pc := s.boundary.pc + 1
      nogrant := false
      env := { s.boundary.env with
        acks := s.boundary.env.acks.drop 1
        waited := s.boundary.env.waited + ((s.boundary.env.acks.take 1).map Ack.wait).sum } }
    let n := if t.waiting = none then minorCycles i f t else none
    exec i f = .next t →
    step s = .next { t with
      temp := Config.temp t.fresh
      fresh := t.fresh + 1
      clocks := t.clocks + 2 * n.getD 0
      untimed := t.untimed + if n.isNone then 1 else 0 }

/-- Derived from R189 and R190, with R46 and R51: reset, a bus operation still waiting, DMA and halt hold the processor
whatever else is pending; then a grant delay forces the fetch; then a panel request wins over a device interrupt; then
the interrupt; else the fetch. R191 and R193: which requests can be granted. The output pins at a boundary: INTGNT
(R33, and R214 where reset is held), RUN (R30, R203), DMAGNT (R50, R214) and IFETCH (R188, R214); that RUN is high in
halt while DMA is granted too, and that the levels are those at a boundary, is the model's choice (log entry 30). -/
def Obligations.PriorityNetworkOrderAndOutputPins : Prop :=
  ∀ s : State,
    (s.pins.resetLow = true ∨ s.waiting ≠ none ∨ s.pins.dmareqLow = true ∨ s.running = false → s.decision = .hold) ∧
    (s.Serving → s.nogrant = true → s.decision = .fetch) ∧
    (s.Serving → s.nogrant = false → s.panelGrantable = true → s.decision = .panelEntry) ∧
    (s.Serving → s.nogrant = false → s.panelGrantable = false → s.interruptGrantable = true →
      s.decision = .interruptGrant) ∧
    (s.Serving → s.nogrant = false → s.panelGrantable = false → s.interruptGrantable = false → s.decision = .fetch) ∧
    (s.panelGrantable = true ↔
      (s.pwron = true ∨ s.pnltrp = true ∨ s.hltflg = true ∨ s.btstrp = true) ∧ s.ctrlff = false ∧ s.iiff = false) ∧
    (s.interruptGrantable = true ↔
      s.pins.intreqLow = true ∧ s.ieff = true ∧ s.iiff = false ∧ s.ctrlff = false) ∧
    (s.intgntLow = true ↔ s.intgntff = true ∧ s.ctrlff = false) ∧
    (s.HeldInReset → s.pins.resetLow = true → s.intgntLow = false) ∧
    (s.runOutLow = true ↔ s.running = true ∧ s.pins.resetLow = false) ∧
    (s.dmagntHigh = true ↔ s.pins.dmareqLow = true ∧ s.pins.resetLow = false ∧ s.waiting = none) ∧
    (s.ifetchLow = true ↔
      s.pins.resetLow = false ∧ (s.decision = .fetch ∨ ∃ a, s.waiting = some (.fetch a)))

/-- Derived from R197: a granted panel request sets CTRLFF and FZ, clears PDF, continues at 7777, stores the old PC at
panel (0, 0000), and changes nothing else but the model's records of the environment and of time; that TEMP is kept is
the model's choice (log entry 24). -/
def Obligations.PanelEntryStep : Prop :=
  ∀ s : State, s.boundary.decision = .panelEntry → s.boundary.Acknowledges 1 →
    ∃ t, step s = .next t ∧
      t = { s.boundary with
        ctrlff := true, fz := true, pdf := false, pc := 0o7777, mem := t.mem, env := t.env,
        untimed := s.boundary.untimed + 1 } ∧
      EnvAfter 0 1 s.boundary t ∧
      (s.boundary.mem.wf = true → s.platform.kindOf ⟨.panel, 0, 0⟩ = .ram →
        t.read ⟨.panel, 0, 0⟩ = s.boundary.pc) ∧
      ∀ a, a ≠ ⟨.panel, 0, 0⟩ → t.read a = s.boundary.read a

/-- Derived from R194: a granted device interrupt stores PC at main (0, 0000), clears IEFF, sets INTGNTFF, saves and
clears the fields, continues at 0001, and changes nothing else; it takes 4 minor cycles. That NOGRANT is set where the
platform does not consult the network again is the model's rendering of U9's other order (log entry 13), and that TEMP is
kept is the model's choice (log entry 24). -/
def Obligations.InterruptGrantStep : Prop :=
  ∀ s : State, s.boundary.decision = .interruptGrant → s.boundary.Acknowledges 1 →
    ∃ t, step s = .next t ∧
      t = { s.boundary with
        ieff := false, intgntff := true, isf := s.boundary.ifr, dsf := s.boundary.df, ifr := 0, ib := 0, df := 0,
        pc := 1, nogrant := !s.platform.consultAfterGrant, mem := t.mem, env := t.env,
        clocks := s.boundary.clocks + 2 * 4 } ∧
      EnvAfter 0 1 s.boundary t ∧
      (s.boundary.mem.wf = true → s.platform.kindOf ⟨.main, 0, 0⟩ = .ram →
        t.read ⟨.main, 0, 0⟩ = s.boundary.pc) ∧
      ∀ a, a ≠ ⟨.main, 0, 0⟩ → t.read a = s.boundary.read a

/-- Derived from R50, R203, R204, R209 and R212. A gap for DMA changes memory as the listed transfers say, records what
was read, and changes no register or flag. A step that the network holds (halt, DMAREQ low, RESET held low, a bus
operation waiting), with no change of RESET listed, keeps every register and flag but RUNHLT and BTSTRP, which pin
changes act on; it makes the transfers of one gap, except that none are made while RESET is low or an operation waits.
Halted, with no pin change and no DMA, the machine stays exactly as it is. -/
def Obligations.HeldStepsAndDmaKeepTheRegisters : Prop :=
  ∀ s : State,
    (s.dmaGap = { s with
        mem := s.dmaGap.mem, env := { s.env with dma := s.env.dma.tail, bus := s.dmaGap.env.bus } } ∧
      DmaMoves (s.env.dma.headD []) s s.dmaGap ∧
      ∀ a rest, s.env.dma = [.read a] :: rest → s.dmaGap.env.bus = .dmaRead a (s.read a) :: s.env.bus) ∧
    (s.boundary.decision = .hold → (∀ m ∈ s.env.moves.headD [], m.pin ≠ .reset) →
      ∃ t, step s = .next t ∧
        t = { s with
          running := t.running, btstrp := t.btstrp, mem := t.mem, pins := t.pins,
          env := { s.env with moves := s.env.moves.tail, dma := t.env.dma, bus := t.env.bus } } ∧
        (s.env.moves.headD [] = [] → t.running = s.running ∧ t.btstrp = s.btstrp ∧ t.pins = s.pins) ∧
        (s.pins.resetLow = true ∨ s.waiting ≠ none →
          t.mem = s.mem ∧ t.env.dma = s.env.dma ∧ t.env.bus = s.env.bus) ∧
        (s.pins.resetLow = false → s.waiting = none →
          t.mem = s.dmaGap.mem ∧ t.env.dma = s.env.dma.tail ∧ t.env.bus = s.dmaGap.env.bus)) ∧
    (s.running = false → s.Quiet → step s = .next s)

/-- Derived from R30, R31 and R228, and, for the edges while RESET is low, from decision D17 and R212 (log entry 17): a
falling CPREQ edge sets BTSTRP and a held level does not; a rising RUN/HLT edge toggles RUNHLT; both only while RESET is
high: an edge while RESET is low changes neither flag. -/
def Obligations.RequestPinsActOnTheirEdges : Prop :=
  ∀ s : State,
    (s.pins.resetLow = false →
      (s.pins.cpreqLow = false → (s.movePin ⟨.cpreq, true⟩).btstrp = true) ∧
      (s.pins.cpreqLow = true → (s.movePin ⟨.cpreq, true⟩).btstrp = s.btstrp) ∧
      (s.movePin ⟨.cpreq, false⟩).btstrp = s.btstrp ∧
      (s.movePin ⟨.runHlt, true⟩).running = s.running ∧
      ((s.movePin ⟨.runHlt, true⟩).movePin ⟨.runHlt, false⟩).running = !s.running) ∧
    (s.pins.resetLow = true →
      (s.movePin ⟨.cpreq, true⟩).btstrp = s.btstrp ∧ (s.movePin ⟨.cpreq, false⟩).btstrp = s.btstrp ∧
      (s.movePin ⟨.runHlt, true⟩).running = s.running ∧
      ((s.movePin ⟨.runHlt, true⟩).movePin ⟨.runHlt, false⟩).running = s.running)

/-- Derived from R212, R213 and R231: a reset pulse at a boundary, from any state: the registers and flags of R35, PWRON
by STRTUP, SP1 and SP2 kept, IOCLR sent, 5 1/2 minor cycles counted; with STRTUP low panel mode is entered, 7777 stored
at panel (0, 0000), with STRTUP high no memory is written. It ends a bus operation that waits for ACK (R211, U6); what
the word of a waiting write holds then is left free (U7, log entry 16), and every other word is kept. -/
def Obligations.ResetPulse : Prop :=
  ∀ s : State, s.pins.resetLow = false → s.Acknowledges 1 →
    let t := (s.movePin ⟨.reset, true⟩).movePin ⟨.reset, false⟩
    (t.ac = 0 ∧ t.l = false ∧ t.mq = 0 ∧ t.pc = 0o7777 ∧ t.ifr = 0 ∧ t.ib = 0 ∧ t.df = 0 ∧ t.isf = 0 ∧ t.dsf = 0 ∧
      t.ieff = false ∧ t.iiff = false ∧ t.gt = false ∧ t.hltflg = false ∧ t.pnltrp = false ∧ t.btstrp = false ∧
      t.pexff = false ∧ t.nogrant = false ∧ t.intgntff = false ∧ t.running = true ∧ t.waiting = none) ∧
    (t.sp1 = s.sp1 ∧ t.sp2 = s.sp2 ∧ t.pins = s.pins ∧ t.platform = s.platform ∧ t.clocks = s.clocks + 11) ∧
    t.pwron = s.platform.strtupLow ∧ t.ctrlff = s.platform.strtupLow ∧
    (s.platform.strtupLow = true → t.fz = true ∧ t.pdf = false ∧
      EnvAfter 0 1 (s.emit (.ioClear true)) t ∧
      (s.mem.wf = true → s.platform.kindOf ⟨.panel, 0, 0⟩ = .ram → t.read ⟨.panel, 0, 0⟩ = 0o7777)) ∧
    (s.platform.strtupLow = false → t.env = { s.env with bus := .ioClear true :: s.env.bus } ∧
      ((∀ a v, s.waiting ≠ some (.write a v)) → t.mem = s.mem)) ∧
    ∀ a, (s.platform.strtupLow = true → a ≠ ⟨.panel, 0, 0⟩) → (∀ v, s.waiting ≠ some (.write a v)) → t.read a = s.read a

/-! ### Address spaces and operands -/

/-- Derived from R38, R39 and R40: instruction references, indirect data and stacks, by CTRLFF, FZ and PDF. -/
def Obligations.AddressSpacesByMode : Prop :=
  ∀ (s : State) (o : Word),
    (s.ctrlff = false →
      s.instrAddr o = ⟨.main, s.ifr, o⟩ ∧ s.dataAddr o = ⟨.main, s.df, o⟩ ∧ s.stackAddr o = ⟨.main, 0, o⟩) ∧
    (s.ctrlff = true →
      s.instrAddr o = ⟨.panel, if s.fz = true then 0 else s.ifr, o⟩ ∧
      s.dataAddr o = ⟨if s.pdf = true then .panel else .main, s.df, o⟩ ∧ s.stackAddr o = ⟨.panel, 0, o⟩)

/-- Derived from R64 and R65 with R45: the instruction address is on page zero or on the page of the instruction; the
effective address is IA itself when direct, the pointer's word when indirect, and through 0010 to 0017 the pointer
incremented and put back where it was read (decision D9), with no DMA between its read and its write (decision D8; log
entry 21 for both). `w` is the pointer's word at its read, after any DMA in the gap. R65: the operand of AND, TAD, ISZ
and DCA is at the effective address `ea`, in the instruction space when direct and in the data space when indirect, and
its word is the one there after the gap before its read. -/
def Obligations.EffectiveAddressForms : Prop :=
  ∀ (s : State) (p : Bool) (a : BitVec 7),
    let ia := s.instructionAddress p a
    let w := s.dmaGap.read (s.instrAddr ia)
    ia.toNat = (if p then s.ol.toNat / 128 * 128 else 0) + a.toNat ∧
    s.effectiveAddress false p a = .done ia s ∧
    (¬ (8 ≤ ia.toNat ∧ ia.toNat ≤ 15) → s.Acknowledges 1 →
      ∃ t, s.effectiveAddress true p a = .done w t ∧ t = { s.dmaGap with env := t.env } ∧ EnvAfter 1 1 s t) ∧
    (8 ≤ ia.toNat ∧ ia.toNat ≤ 15 → s.Acknowledges 2 →
      ∃ t, s.effectiveAddress true p a = .done (w + 1) t ∧ t = { s with mem := t.mem, env := t.env } ∧
        EnvAfter 1 2 s t ∧
        (s.mem.wf = true → s.platform.kindOf (s.instrAddr ia) = .ram → t.read (s.instrAddr ia) = w + 1) ∧
        ∀ b, b ≠ s.instrAddr ia → t.read b = s.dmaGap.read b) ∧
    (∀ (i : Bool) (ea : Word) (t : State), s.effectiveAddress i p a = .done ea t →
      let b := if i then t.dataAddr ea else t.instrAddr ea
      s.operandAddr i p a = .done b t ∧
      (t.Acknowledges 1 → ∃ u, s.operand i p a = .done (t.dmaGap.read b) u ∧ u = { t.dmaGap with env := u.env } ∧
        EnvAfter 1 1 t u)) ∧
    (∀ (i : Bool) (t : State), s.effectiveAddress i p a = .hung t →
      s.operandAddr i p a = .hung t ∧ s.operand i p a = .hung t)

/-! ### Memory reference instructions -/

/-- Derived from R67 and R64: AND leaves the AND of AC and the operand word in AC; L and every other register are
unchanged. An autoindex pointer is left incremented (R64, decisions D8 and D9, log entry 21). -/
def Obligations.AndResult : Prop :=
  ∀ (s : State) (i p : Bool) (a : BitVec 7), s.Acknowledges (s.pointerAcks i p a + 1) →
    ∃ t, exec (.and i p a) s = .next t ∧
      (∀ k, t.ac.getLsbD k = (s.ac.getLsbD k && ((s.operand i p a).getD 0).getLsbD k)) ∧
      t = { s with ac := t.ac, mem := t.mem, env := t.env } ∧
      EnvAfter (State.pointerGaps i + 1) (s.pointerAcks i p a + 1) s t ∧
      PointerAdvanced [] s t i p a ∧ MemoryKeptExcept (s.pointerStored i p a) s t

/-- Derived from R68 and R64: L and AC together are a 13-bit number to which TAD adds the operand word; no other
register changes. An autoindex pointer is left incremented (R64, decisions D8 and D9, log entry 21). -/
def Obligations.TadAddsToLinkAndAc : Prop :=
  ∀ (s : State) (i p : Bool) (a : BitVec 7), s.Acknowledges (s.pointerAcks i p a + 1) →
    let w := (s.operand i p a).getD 0
    ∃ t, exec (.tad i p a) s = .next t ∧
      BitVec.cons t.l t.ac = BitVec.cons s.l s.ac + w.setWidth 13 ∧
      t.ac.toNat = (s.ac.toNat + w.toNat) % 4096 ∧
      t = { s with ac := t.ac, l := t.l, mem := t.mem, env := t.env } ∧
      EnvAfter (State.pointerGaps i + 1) (s.pointerAcks i p a + 1) s t ∧
      PointerAdvanced [] s t i p a ∧ MemoryKeptExcept (s.pointerStored i p a) s t

/-- Derived from R69: ISZ puts the operand word plus one back, with no DMA between (decision D8, log entry 21), and
skips exactly when it became zero; every other register is unchanged, AC and L too (decision D10, log entry 22). An
autoindex pointer is left incremented (R64, decisions D8 and D9, log entry 21). `w` is the operand word at its read. -/
def Obligations.IszIncrementsAndSkipsOnZero : Prop :=
  ∀ (s : State) (i p : Bool) (a : BitVec 7), s.Acknowledges (s.pointerAcks i p a + 2) →
    let b := (s.operandAddr i p a).getD ⟨.main, 0, 0⟩
    let w := (s.operand i p a).getD 0
    ∃ t, exec (.isz i p a) s = .next t ∧
      t = { s with pc := if w = 0o7777 then s.pc + 1 else s.pc, mem := t.mem, env := t.env } ∧
      EnvAfter (State.pointerGaps i + 1) (s.pointerAcks i p a + 2) s t ∧
      (s.mem.wf = true → s.platform.kindOf b = .ram → t.read b = w + 1) ∧
      PointerAdvanced [b] s t i p a ∧ MemoryKeptExcept (b :: s.pointerStored i p a) s t

/-- Derived from R70 and R64: DCA stores AC in the operand word and clears AC; L and every other register are
unchanged. An autoindex pointer is left incremented (R64, decisions D8 and D9, log entry 21). -/
def Obligations.DcaStoresAndClears : Prop :=
  ∀ (s : State) (i p : Bool) (a : BitVec 7), s.Acknowledges (s.pointerAcks i p a + 1) →
    let b := (s.operandAddr i p a).getD ⟨.main, 0, 0⟩
    ∃ t, exec (.dca i p a) s = .next t ∧
      t = { s with ac := 0, mem := t.mem, env := t.env } ∧
      EnvAfter (State.pointerGaps i + 1) (s.pointerAcks i p a + 1) s t ∧
      (s.mem.wf = true → s.platform.kindOf b = .ram → t.read b = s.ac) ∧
      PointerAdvanced [b] s t i p a ∧ MemoryKeptExcept (b :: s.pointerStored i p a) s t

/-- Derived from R71, R63 and R64: JMS stores the return address in its slot of the instruction space, continues at the
word after the effective address, and makes the field transfer; no other register changes. The slot is in the new field
and space, or the old one, as JMS_STORE_AFTER_TRANSFER says. An autoindex pointer is left incremented (R64, decisions
D8 and D9, log entry 21). -/
def Obligations.JmsStoresTheReturnAddress : Prop :=
  ∀ (s : State) (i p : Bool) (a : BitVec 7), s.Acknowledges (s.pointerAcks i p a + 1) →
    let ea := (s.effectiveAddress i p a).getD 0
    let slot := s.returnSlot i p a
    ∃ t, exec (.jms i p a) s = .next t ∧
      t = { s with
        pc := ea + 1, ifr := s.ib, fz := s.fz && !s.iiff, iiff := false, ctrlff := s.ctrlff && !s.pexff,
        nogrant := s.nogrant || s.pexff, pexff := false, mem := t.mem, env := t.env } ∧
      EnvAfter (State.pointerGaps i + 1) (s.pointerAcks i p a + 1) s t ∧
      (s.platform.jmsStoreAfterTransfer = true → slot = t.instrAddr ea) ∧
      (s.platform.jmsStoreAfterTransfer = false → slot = s.instrAddr ea) ∧
      (s.mem.wf = true → s.platform.kindOf slot = .ram → t.read slot = s.pc) ∧
      PointerAdvanced [slot] s t i p a ∧ MemoryKeptExcept (slot :: s.pointerStored i p a) s t

/-- Derived from R72, R63 and R64: JMP continues at the effective address after the field transfer; no other register
changes. An autoindex pointer is left incremented (R64, decisions D8 and D9, log entry 21). -/
def Obligations.JmpContinuesAtTheEffectiveAddress : Prop :=
  ∀ (s : State) (i p : Bool) (a : BitVec 7), s.Acknowledges (s.pointerAcks i p a) →
    ∃ t, exec (.jmp i p a) s = .next t ∧
      t = { s with
        pc := (s.effectiveAddress i p a).getD 0, ifr := s.ib, fz := s.fz && !s.iiff, iiff := false,
        ctrlff := s.ctrlff && !s.pexff, nogrant := s.nogrant || s.pexff, pexff := false, mem := t.mem, env := t.env } ∧
      EnvAfter (State.pointerGaps i) (s.pointerAcks i p a) s t ∧
      PointerAdvanced [] s t i p a ∧ MemoryKeptExcept (s.pointerStored i p a) s t

/-! ### Operate instructions -/

/-- R76, R83 to R86, R91 to R93, R95, R96: the listed group 1 words that clear, complement and count; each changes AC
and L as said and nothing else. -/
def Obligations.Group1ClearComplementIncrement : Prop :=
  ∀ s : State,
    exec .nop1 s = .next s ∧
    exec .iac s = .next { s with ac := s.ac + 1, l := if s.ac = 0o7777 then !s.l else s.l } ∧
    exec .cml s = .next { s with l := !s.l } ∧
    exec .cma s = .next { s with ac := 0o7777 - s.ac } ∧
    exec .cia s = .next { s with ac := -s.ac, l := if s.ac = 0 then !s.l else s.l } ∧
    exec .cll s = .next { s with l := false } ∧
    exec .stl s = .next { s with l := true } ∧
    exec .cla1 s = .next { s with ac := 0 } ∧
    exec .claIac s = .next { s with ac := 1 } ∧
    exec .sta s = .next { s with ac := 0o7777 } ∧
    exec .claCll s = .next { s with ac := 0, l := false }

/-- R77 to R82, R87 to R90, R94: the listed group 1 words that move bits, bit i of AC being the data sheet's bit i;
each changes AC and L as said and nothing else; and the corners the rules name: BSW twice, thirteen RALs and four R3Ls
change nothing. -/
def Obligations.Group1Rotates : Prop :=
  ∀ s : State,
    exec .bsw s = .next { s with ac := s.ac.extractLsb' 0 6 ++ s.ac.extractLsb' 6 6 } ∧
    exec .ral s = .next { s with ac := s.ac.extractLsb' 0 11 ++ BitVec.ofBool s.l, l := bit s.ac 0 } ∧
    exec .rtl s = .next { s with
      ac := s.ac.extractLsb' 0 10 ++ BitVec.ofBool s.l ++ BitVec.ofBool (bit s.ac 0), l := bit s.ac 1 } ∧
    exec .rar s = .next { s with ac := BitVec.ofBool s.l ++ s.ac.extractLsb' 1 11, l := bit s.ac 11 } ∧
    exec .rtr s = .next { s with
      ac := BitVec.ofBool (bit s.ac 11) ++ BitVec.ofBool s.l ++ s.ac.extractLsb' 2 10, l := bit s.ac 10 } ∧
    exec .r3l s = .next { s with ac := s.ac.extractLsb' 0 9 ++ s.ac.extractLsb' 9 3 } ∧
    exec .cllRal s = .next { s with ac := s.ac <<< 1, l := bit s.ac 0 } ∧
    exec .cllRtl s = .next { s with ac := (s.ac <<< 2) ||| bitWord (bit s.ac 0), l := bit s.ac 1 } ∧
    exec .cllRar s = .next { s with ac := s.ac >>> 1, l := bit s.ac 11 } ∧
    exec .cllRtr s = .next { s with ac := (s.ac >>> 2) ||| (bitWord (bit s.ac 11) <<< 11), l := bit s.ac 10 } ∧
    exec .glk s = .next { s with ac := bitWord s.l, l := false } ∧
    s.byteSwap.byteSwap = s ∧ State.rotateLeft^[13] s = s ∧ State.rotateThree^[4] s = s

/-- Derived from R73 with R74: a group 1 word with a defined rotate code clears, complements and adds over the 13-bit
number L, AC and then rotates it; it changes AC and L only. -/
def Obligations.Group1Sequence : Prop :=
  ∀ (s : State) (cla cll cma cml iac : Bool) (rot : Field), rot ≠ 7 →
    let a := (if cla then 0 else s.ac) ^^^ (if cma then 0o7777 else 0)
    let k := (if cll then false else s.l) ^^ cml
    let x : BitVec 13 := BitVec.cons k a + (if iac then 1 else 0)
    ∃ t, exec (.opr1 cla cll cma cml rot iac) s = .next t ∧ t = { s with ac := t.ac, l := t.l } ∧
      (rot = 0 → BitVec.cons t.l t.ac = x) ∧
      (rot = 1 → t.l = x.getLsbD 12 ∧ t.ac = x.extractLsb' 0 6 ++ x.extractLsb' 6 6) ∧
      (rot = 2 → BitVec.cons t.l t.ac = x.rotateLeft 1) ∧
      (rot = 3 → BitVec.cons t.l t.ac = x.rotateLeft 2) ∧
      (rot = 4 → BitVec.cons t.l t.ac = x.rotateRight 1) ∧
      (rot = 5 → BitVec.cons t.l t.ac = x.rotateRight 2) ∧
      (rot = 6 → t.l = x.getLsbD 12 ∧ t.ac = (x.setWidth 12).rotateLeft 3)

/-- Derived from R74, U1 and decision D3's kind: a "Do Not Use" group 1 word runs, changes AC and L only, and leaves
free values in them (the model's choice among U1's two treatments, log entry 11). -/
def Obligations.UndefinedRotateTouchesOnlyAcAndLink : Prop :=
  ∀ (s : State) (cla cll cma cml iac : Bool), ∃ t, exec (.opr1 cla cll cma cml 7 iac) s = .next t ∧
    t = { s with ac := t.ac, l := t.l, fresh := s.fresh + 1 }

/-- R99, R100, R103 to R107, R110, R111, R118: the listed group 2 words with one test or none: PC as said, AC and L
unchanged but for CLA, nothing else changed. Minus is AC at least 4000, positive AC at most 3777. -/
def Obligations.Group2SingleTests : Prop :=
  ∀ s : State,
    exec .nop2 s = .next s ∧
    exec .skp s = .next { s with pc := s.pc + 1 } ∧
    exec .snl s = .next (if s.l = true then { s with pc := s.pc + 1 } else s) ∧
    exec .szl s = .next (if s.l = false then { s with pc := s.pc + 1 } else s) ∧
    exec .sza s = .next (if s.ac = 0 then { s with pc := s.pc + 1 } else s) ∧
    exec .sna s = .next (if s.ac ≠ 0 then { s with pc := s.pc + 1 } else s) ∧
    exec .sma s = .next (if 0o4000 ≤ s.ac.toNat then { s with pc := s.pc + 1 } else s) ∧
    exec .spa s = .next (if s.ac.toNat ≤ 0o3777 then { s with pc := s.pc + 1 } else s) ∧
    exec .cla2 s = .next { s with ac := 0 }

/-- R108, R109, R112 to R117, R120 to R123: the listed group 2 words with several tests, and those that clear AC after
the test. -/
def Obligations.Group2CombinedTests : Prop :=
  ∀ s : State,
    let n := s.ac.toNat
    exec .szaSnl s = .next { s with pc := if n = 0 ∨ s.l = true then s.pc + 1 else s.pc } ∧
    exec .snaSzl s = .next { s with pc := if n ≠ 0 ∧ s.l = false then s.pc + 1 else s.pc } ∧
    exec .smaSnl s = .next { s with pc := if 0o4000 ≤ n ∨ s.l = true then s.pc + 1 else s.pc } ∧
    exec .spaSzl s = .next { s with pc := if n < 0o4000 ∧ s.l = false then s.pc + 1 else s.pc } ∧
    exec .smaSza s = .next { s with pc := if 0o4000 ≤ n ∨ n = 0 then s.pc + 1 else s.pc } ∧
    exec .spaSna s = .next { s with pc := if 0 < n ∧ n < 0o4000 then s.pc + 1 else s.pc } ∧
    exec .smaSzaSnl s = .next { s with pc := if 0o4000 ≤ n ∨ n = 0 ∨ s.l = true then s.pc + 1 else s.pc } ∧
    exec .spaSnaSzl s = .next { s with pc := if 0 < n ∧ n < 0o4000 ∧ s.l = false then s.pc + 1 else s.pc } ∧
    exec .szaCla s = .next { s with ac := 0, pc := if n = 0 then s.pc + 1 else s.pc } ∧
    exec .snaCla s = .next { s with ac := 0, pc := if n ≠ 0 then s.pc + 1 else s.pc } ∧
    exec .smaCla s = .next { s with ac := 0, pc := if 0o4000 ≤ n then s.pc + 1 else s.pc } ∧
    exec .spaCla s = .next { s with ac := 0, pc := if n < 0o4000 then s.pc + 1 else s.pc }

/-- Derived from R98: any group 2 template: the OR of the selected tests, or with the sense bit the AND of their
opposites, decides the skip on the old AC and L; then CLA; then OSR ORs the switch word in, after a gap for DMA (R50),
and HLT sets HLTFLG. L is never written. That OSR keeps INTGNTFF is decision D12 (log entry 23). -/
def Obligations.Group2Sequence : Prop :=
  ∀ (s : State) (cla sma sza snl sense osr hlt : Bool), (osr = true → s.Acknowledges 1) →
    let minus := 0o4000 ≤ s.ac.toNat
    let taken := if sense then (sma → ¬ minus) ∧ (sza → s.ac ≠ 0) ∧ (snl → s.l = false)
      else (sma ∧ minus) ∨ (sza ∧ s.ac = 0) ∨ (snl ∧ s.l = true)
    let b := if osr then s.dmaGap else s
    ∃ t, exec (.opr2 cla sma sza snl sense osr hlt) s = .next t ∧
      (taken → t.pc = s.pc + 1) ∧ (¬ taken → t.pc = s.pc) ∧
      t.ac = (if cla then 0 else s.ac) ||| (if osr then s.switchWord else 0) ∧
      t.hltflg = (s.hltflg || hlt) ∧
      t = { b with pc := t.pc, ac := t.ac, hltflg := t.hltflg, env := t.env, fresh := t.fresh } ∧
      t.env = (if osr then { b.env with
        acks := s.env.acks.drop 1, waited := s.env.waited + ((s.env.acks.take 1).map Ack.wait).sum,
        switches := s.env.switches.tail, bus := .switchRead s.df :: b.env.bus } else s.env) ∧
      t.fresh = if osr then s.fresh + 1 else s.fresh

/-- Derived from R102 and R119, with HLT's flag of R101: OSR ORs the switch-register word into AC, LAS loads it, HLT
sets HLTFLG; the read comes after a gap for DMA (R50) and presents DF; nothing else changes but the record of the read.
That OSR and LAS keep INTGNTFF is the spec's decision D12, not a statement of the data sheet (log entry 23). -/
def Obligations.SwitchRegisterReadsAndHalt : Prop :=
  ∀ s : State,
    let b := s.dmaGap
    let e : Env := { b.env with
      acks := s.env.acks.drop 1, waited := s.env.waited + ((s.env.acks.take 1).map Ack.wait).sum,
      switches := s.env.switches.tail, bus := .switchRead s.df :: b.env.bus }
    (s.Acknowledges 1 →
      exec .osr s = .next { b with ac := s.ac ||| s.switchWord, env := e, fresh := s.fresh + 1 } ∧
      exec .las s = .next { b with ac := s.switchWord, env := e, fresh := s.fresh + 1 }) ∧
    exec .hlt s = .next { s with hltflg := true }

/-- R126 to R133: the listed group 3 words; each changes AC and MQ as said and nothing else. -/
def Obligations.Group3Listing : Prop :=
  ∀ s : State,
    exec .nop3 s = .next s ∧ exec .mql s = .next { s with mq := s.ac, ac := 0 } ∧
    exec .mqa s = .next { s with ac := s.mq ||| s.ac } ∧ exec .swp s = .next { s with ac := s.mq, mq := s.ac } ∧
    exec .cla3 s = .next { s with ac := 0 } ∧ exec .cam s = .next { s with ac := 0, mq := 0 } ∧
    exec .acl s = .next { s with ac := s.mq } ∧ exec .claSwp s = .next { s with ac := s.mq, mq := 0 }

/-- Derived from R125 and R134: the truth table of bits 4, 5 and 7, and the grant delay that any of bits 6, 8, 9 and
10 sets. -/
def Obligations.Group3TruthTable : Prop :=
  ∀ (s : State) (u6 : Bool) (u : Field),
    let d := s.nogrant || u6 || u.getLsbD 0 || u.getLsbD 1 || u.getLsbD 2
    exec (.opr3 false false u6 false u) s = .next { s with nogrant := d } ∧
    exec (.opr3 false false u6 true u) s = .next { s with mq := s.ac, ac := 0, nogrant := d } ∧
    exec (.opr3 false true u6 false u) s = .next { s with ac := s.mq ||| s.ac, nogrant := d } ∧
    exec (.opr3 false true u6 true u) s = .next { s with ac := s.mq, mq := s.ac, nogrant := d } ∧
    exec (.opr3 true false u6 false u) s = .next { s with ac := 0, nogrant := d } ∧
    exec (.opr3 true false u6 true u) s = .next { s with ac := 0, mq := 0, nogrant := d } ∧
    exec (.opr3 true true u6 false u) s = .next { s with ac := s.mq, nogrant := d } ∧
    exec (.opr3 true true u6 true u) s = .next { s with ac := s.mq, mq := 0, nogrant := d }

/-- Derived from R73, R97, R98, R124, R125 and R134: every operate word, listed or not, in either mode, does what the
generic rule of its group gives its bits. -/
def Obligations.OperateWordsFollowTheGenericRules : Prop :=
  ∀ (panel : Bool) (w : Word) (s : State), bits3 w 0 = 7 →
    (bit w 3 = false → exec (decodeWord panel w) s =
      exec (.opr1 (bit w 4) (bit w 5) (bit w 6) (bit w 7) (bits3 w 8) (bit w 11)) s) ∧
    (bit w 3 = true → bit w 11 = false → exec (decodeWord panel w) s =
      exec (.opr2 (bit w 4) (bit w 5) (bit w 6) (bit w 7) (bit w 8) (bit w 9) (bit w 10)) s) ∧
    (bit w 3 = true → bit w 11 = true → exec (decodeWord panel w) s =
      exec (.opr3 (bit w 4) (bit w 5) (bit w 6) (bit w 7) (bits3 w 8)) s)

/-! ### Stacks -/

/-- Derived from R136 to R139: a push stores the address after the next instruction, or AC, at the stack pointer in
field 0 of the mode's memory, and decrements the pointer; nothing else changes. That PPC1 and PPC2 leave PC as it is is
the spec's decision D11 (log entry 22). -/
def Obligations.PushesStoreAndDecrement : Prop :=
  ∀ s : State, s.Acknowledges 1 →
    (∀ iv ∈ [(Instr.ppc1, s.pc + 1), (Instr.pac1, s.ac)], ∃ t, exec iv.1 s = .next t ∧
      t = { s with sp1 := s.sp1 - 1, mem := t.mem, env := t.env } ∧ EnvAfter 1 1 s t ∧
      (s.mem.wf = true → s.platform.kindOf (s.stackAddr s.sp1) = .ram → t.read (s.stackAddr s.sp1) = iv.2) ∧
      MemoryKeptExcept [s.stackAddr s.sp1] s t) ∧
    (∀ iv ∈ [(Instr.ppc2, s.pc + 1), (Instr.pac2, s.ac)], ∃ t, exec iv.1 s = .next t ∧
      t = { s with sp2 := s.sp2 - 1, mem := t.mem, env := t.env } ∧ EnvAfter 1 1 s t ∧
      (s.mem.wf = true → s.platform.kindOf (s.stackAddr s.sp2) = .ram → t.read (s.stackAddr s.sp2) = iv.2) ∧
      MemoryKeptExcept [s.stackAddr s.sp2] s t)

/-- R142 to R147: a pop increments the pointer and loads AC from the word it then names; RSP reads a pointer, LSP
loads it and clears AC; nothing else changes. The word popped is the one after any DMA in the gap before its read. -/
def Obligations.PopsAndPointerMoves : Prop :=
  ∀ s : State,
    (s.Acknowledges 1 → ∃ t, exec .pop1 s = .next t ∧ t.ac = s.dmaGap.read (s.stackAddr (s.sp1 + 1)) ∧
      t = { s with sp1 := s.sp1 + 1, ac := t.ac, mem := t.mem, env := t.env } ∧ EnvAfter 1 1 s t ∧
      MemoryKeptExcept [] s t) ∧
    (s.Acknowledges 1 → ∃ t, exec .pop2 s = .next t ∧ t.ac = s.dmaGap.read (s.stackAddr (s.sp2 + 1)) ∧
      t = { s with sp2 := s.sp2 + 1, ac := t.ac, mem := t.mem, env := t.env } ∧ EnvAfter 1 1 s t ∧
      MemoryKeptExcept [] s t) ∧
    exec .rsp1 s = .next { s with ac := s.sp1 } ∧ exec .rsp2 s = .next { s with ac := s.sp2 } ∧
    exec .lsp1 s = .next { s with sp1 := s.ac, ac := 0 } ∧ exec .lsp2 s = .next { s with sp2 := s.ac, ac := 0 }

/-- R140 and R141 with R63: a return increments the pointer, makes the field transfer and loads PC from the stack
word: of main memory when the instruction ends in main mode, of panel memory when it stays in panel mode, unless the
platform takes every panel-mode return from the main stack (D6). Nothing else changes. -/
def Obligations.ReturnsLoadPcFromTheStack : Prop :=
  ∀ s : State, s.Acknowledges 1 →
    let main : Bool := !s.ctrlff || s.pexff || !s.platform.rtnMainStackOnlyAfterPex
    let space : Space := if main then .main else .panel
    (∃ t, exec .rtn1 s = .next t ∧ t.pc = s.dmaGap.read ⟨space, 0, s.sp1 + 1⟩ ∧
      t = { s with
        sp1 := s.sp1 + 1, pc := t.pc, ifr := s.ib, fz := s.fz && !s.iiff, iiff := false, ctrlff := s.ctrlff && !s.pexff,
        nogrant := s.nogrant || s.pexff, pexff := false, mem := t.mem, env := t.env } ∧
      EnvAfter 1 1 s t ∧ MemoryKeptExcept [] s t) ∧
    (∃ t, exec .rtn2 s = .next t ∧ t.pc = s.dmaGap.read ⟨space, 0, s.sp2 + 1⟩ ∧
      t = { s with
        sp2 := s.sp2 + 1, pc := t.pc, ifr := s.ib, fz := s.fz && !s.iiff, iiff := false, ctrlff := s.ctrlff && !s.pexff,
        nogrant := s.nogrant || s.pexff, pexff := false, mem := t.mem, env := t.env } ∧
      EnvAfter 1 1 s t ∧ MemoryKeptExcept [] s t)

/-- Derived from R136, R138, R140, R142: with no DMA, every operation acknowledged and RAM under the pointer, PAC1 then
POP1 gives AC and SP1 back, and PPC1 then RTN1 continues two words after the PPC1. -/
def Obligations.PushThenPopRestores : Prop :=
  ∀ (s t : State) (x : Word), s.mem.wf = true → s.env.dma = [] → s.Acknowledges 2 →
    s.platform.kindOf (s.stackAddr s.sp1) = .ram →
    (exec .pac1 s = .next t → ∃ u, exec .pop1 { t with ac := x } = .next u ∧ u.ac = s.ac ∧ u.sp1 = s.sp1) ∧
    (exec .ppc1 s = .next t → s.pexff = false → s.platform.rtnMainStackOnlyAfterPex = true →
      ∃ u, exec .rtn1 { t with pc := x } = .next u ∧ u.pc = s.pc + 1 ∧ u.sp1 = s.sp1)

/-! ### Control, fields and flags -/

/-- Derived from R150, R151, R153 to R155: ION, IOF, SGT, CAF and WSR; each changes what is said and nothing else. WSR's
bus write comes after a gap for DMA (R50). That WSR keeps INTGNTFF is the spec's decision D12, not a statement of the
data sheet (log entry 23). -/
def Obligations.InternalControlResults : Prop :=
  ∀ s : State,
    let b := s.dmaGap
    exec .ion s = .next { s with ieff := true, nogrant := true } ∧
    exec .iof s = .next { s with ieff := false } ∧
    exec .sgt s = .next (if s.gt = true then { s with pc := s.pc + 1 } else s) ∧
    exec .caf s = .next { s with
      ac := 0, l := false, gt := false, ieff := false, env := { s.env with bus := .ioClear false :: s.env.bus } } ∧
    (s.Acknowledges 1 → exec .wsr s = .next { b with ac := 0, env := { b.env with
      acks := s.env.acks.drop 1, waited := s.env.waited + ((s.env.acks.take 1).map Ack.wait).sum,
      bus := .switchWrite s.df s.ac :: b.env.bus } })

/-- Derived from R152: RTF loads L, GT, IEFF, IB and DF from AC, sets IIFF and clears AC, and changes nothing else. -/
def Obligations.RtfLoadsFlagsFromAc : Prop :=
  ∀ s : State, ∃ t, exec .rtf s = .next t ∧
    t.l = s.ac.getLsbD 11 ∧ t.gt = s.ac.getLsbD 10 ∧ t.ieff = s.ac.getLsbD 7 ∧
    t.ib.toNat = s.ac.toNat / 8 % 8 ∧ t.df.toNat = s.ac.toNat % 8 ∧
    t = { s with ac := 0, l := t.l, gt := t.gt, ieff := t.ieff, ib := t.ib, df := t.df, iiff := true }

/-- Derived from R156 and R160: the bits of the words GCF and GTF load into AC; nothing else changes. -/
def Obligations.FlagWordsOfGcfAndGtf : Prop :=
  ∀ s : State,
    (∃ t, exec .gcf s = .next t ∧ t = { s with ac := t.ac } ∧
      bit t.ac 0 = s.l ∧ bit t.ac 1 = s.gt ∧ bit t.ac 2 = s.pins.intreqLow ∧ bit t.ac 3 = s.pwron ∧
      bit t.ac 4 = s.ieff ∧ bit t.ac 5 = false ∧ bits3 t.ac 6 = s.ifr ∧ bits3 t.ac 9 = s.df) ∧
    (∃ t, exec .gtf s = .next t ∧ t = { s with ac := t.ac } ∧
      bit t.ac 0 = s.l ∧ bit t.ac 1 = s.gt ∧ bit t.ac 2 = s.pins.intreqLow ∧ bit t.ac 3 = s.pwron ∧
      bit t.ac 4 = true ∧ bit t.ac 5 = false ∧ bits3 t.ac 6 = s.isf ∧ bits3 t.ac 9 = s.dsf)

/-- Derived from R152, R156 and R160: RTF of a GCF word restores L, GT and IEFF and puts the current fields in IB and
DF; RTF of a GTF word restores L and GT, enables interrupts and puts the saved fields in IB and DF. -/
def Obligations.RtfUndoesGcfAndGtf : Prop :=
  ∀ (s t u : State),
    (exec .gcf s = .next t → exec .rtf { u with ac := t.ac } = .next { u with
      ac := 0, l := s.l, gt := s.gt, ieff := s.ieff, ib := s.ifr, df := s.df, iiff := true }) ∧
    (exec .gtf s = .next t → exec .rtf { u with ac := t.ac } = .next { u with
      ac := 0, l := s.l, gt := s.gt, ieff := true, ib := s.isf, df := s.dsf, iiff := true })

/-- Derived from R158, R159, R161 to R164: SKON, SRQ and PR0 to PR3; the traps set PNLTRP in main mode and do nothing
in panel mode. -/
def Obligations.MainControlResults : Prop :=
  ∀ s : State,
    exec .skon s = .next { s with ieff := false, pc := if s.ieff = true then s.pc + 1 else s.pc } ∧
    exec .srq s = .next (if s.pins.intreqLow = true then { s with pc := s.pc + 1 } else s) ∧
    ∀ i ∈ [Instr.pr0, .pr1, .pr2, .pr3], exec i s = .next (if s.ctrlff = true then s else { s with pnltrp := true })

/-- Derived from R166 to R170: PRS reads the five status bits and clears PNLTRP, PWRON and a BTSTRP it read as 1; PGO
clears HLTFLG; PEX sets PEXFF and clears PWRON and PNLTRP; CPD and SPD clear and set PDF. Nothing else changes. That CPD
and SPD act in main mode too is the spec's decision D13, not a statement of the data sheet (log entry 23). -/
def Obligations.PanelControlResults : Prop :=
  ∀ s : State,
    (∃ t, exec .prs s = .next t ∧
      bit t.ac 0 = s.btstrp ∧ bit t.ac 1 = s.pnltrp ∧ bit t.ac 2 = s.pins.intreqLow ∧ bit t.ac 3 = s.pwron ∧
      bit t.ac 4 = s.hltflg ∧ t.ac.toNat % 128 = 0 ∧
      t = { s with
        ac := t.ac, pnltrp := false, pwron := false, btstrp := if bit t.ac 0 = true then false else s.btstrp }) ∧
    exec .pgo s = .next { s with hltflg := false } ∧
    exec .pex s = .next { s with pexff := true, pwron := false, pnltrp := false } ∧
    exec .cpd s = .next { s with pdf := false } ∧
    exec .spd s = .next { s with pdf := true }

/-- R172 to R174 and R178: the loads of DF, IB and IIFF; IF is unchanged, and so is everything else. -/
def Obligations.FieldLoads : Prop :=
  ∀ (s : State) (x : Field),
    exec (.cdf x) s = .next { s with df := x } ∧
    exec (.cif x) s = .next { s with ib := x, iiff := true } ∧
    exec (.cdfCif x) s = .next { s with df := x, ib := x, iiff := true } ∧
    exec .rmf s = .next { s with ib := s.isf, df := s.dsf, iiff := true }

/-- R175 to R177: RDF, RIF and RIB replace bits 6 to 8, or 6 to 11, of AC and keep the others; nothing else changes.
-/
def Obligations.FieldReads : Prop :=
  ∀ s : State,
    (∃ t, exec .rdf s = .next t ∧ t = { s with ac := t.ac } ∧ bits3 t.ac 6 = s.df ∧ bits3 t.ac 0 = bits3 s.ac 0 ∧
      bits3 t.ac 3 = bits3 s.ac 3 ∧ bits3 t.ac 9 = bits3 s.ac 9) ∧
    (∃ t, exec .rif s = .next t ∧ t = { s with ac := t.ac } ∧ bits3 t.ac 6 = s.ifr ∧ bits3 t.ac 0 = bits3 s.ac 0 ∧
      bits3 t.ac 3 = bits3 s.ac 3 ∧ bits3 t.ac 9 = bits3 s.ac 9) ∧
    (∃ t, exec .rib s = .next t ∧ t = { s with ac := t.ac } ∧ bits3 t.ac 6 = s.isf ∧ bits3 t.ac 9 = s.dsf ∧
      bits3 t.ac 0 = bits3 s.ac 0 ∧ bits3 t.ac 3 = bits3 s.ac 3)

/-! ### Input and output -/

/-- R180 to R183: an external IOT, after a gap for DMA (R50), gives the device the word, DF and AC; C1 and C0 choose what
AC takes, SKIP the skip independently; in main mode INTGNTFF is cleared, in panel mode kept; nothing else changes. -/
def Obligations.ExternalIotTransfer : Prop :=
  ∀ (s : State) (device : BitVec 6) (op : Field), s.Acknowledges 1 →
    let w := encode (.iot device op)
    let d := s.deviceAnswer w
    let b := s.dmaGap
    ∃ t, exec (.iot device op) s = .next t ∧
      (d.c1Low = false → d.c0Low = false → t.ac = s.ac) ∧ (d.c1Low = false → d.c0Low = true → t.ac = 0) ∧
      (d.c1Low = true → d.c0Low = false → t.ac = s.ac ||| d.data) ∧ (d.c1Low = true → d.c0Low = true → t.ac = d.data) ∧
      t = { b with
        ac := t.ac, pc := if d.skipLow = true then s.pc + 1 else s.pc, intgntff := s.ctrlff && s.intgntff,
        env := { b.env with
          acks := s.env.acks.drop 1, waited := s.env.waited + ((s.env.acks.take 1).map Ack.wait).sum,
          answers := s.env.answers.tail, bus := .iot w s.df s.ac :: b.env.bus },
        fresh := s.fresh + 1 }

/-- Derived from R184, U2 and decision D3's permissive treatment (the model's choice, log entry 12): a reserved
internal IOT word runs; it can change AC, L and the flags, and no other register and no memory; INTGNTFF and RUNHLT
keep their values, main mode is not left, and R21's invariant is kept. -/
def Obligations.ReservedWordsTouchOnlyAcLinkAndFlags : Prop :=
  ∀ (i : Instr) (s : State), i.isReserved = true → ∃ t, exec i s = .next t ∧
    t = { s with
      ac := t.ac, l := t.l, ieff := t.ieff, iiff := t.iiff, ctrlff := t.ctrlff, fz := t.fz, pdf := t.pdf,
      pwron := t.pwron, pnltrp := t.pnltrp, hltflg := t.hltflg, btstrp := t.btstrp, gt := t.gt, pexff := t.pexff,
      nogrant := t.nogrant, fresh := s.fresh + 1 } ∧
    (s.ctrlff = false → t.ctrlff = false) ∧ (t.iiff = false → t.ib = t.ifr)

/-! ### Sequences the rules describe -/

/-- Derived from R101 with R188 and R197: with nothing acting from outside, a HLT in main mode with IIFF clear is
followed at the next step by a panel entry that saves the address of the next instruction, HLTFLG set. -/
def Obligations.HaltIsFollowedByPanelEntry : Prop :=
  ∀ s : State, s.Quiet → s.Serving → s.Acknowledges 2 → s.decision = .fetch → s.ctrlff = false → s.iiff = false →
    s.mem.wf = true → s.read (s.instrAddr s.pc) = 0o7402 → s.platform.kindOf ⟨.panel, 0, 0⟩ = .ram →
    ∃ t u, step s = .next t ∧ step t = .next u ∧ t.pc = s.pc + 1 ∧ t.hltflg = true ∧ t.ctrlff = false ∧
      u.ctrlff = true ∧ u.fz = true ∧ u.pdf = false ∧ u.hltflg = true ∧ u.pc = 0o7777 ∧
      u.read ⟨.panel, 0, 0⟩ = s.pc + 1

/-- Derived from R218 and R150: after ION, with INTREQ low or a panel request pending, the next boundary fetches, and
a NOP there is executed before anything is granted. -/
def Obligations.IonDelaysTheGrantByOneInstruction : Prop :=
  ∀ s t : State, s.Quiet → s.Serving → s.Acknowledges 1 → exec .ion s = .next t →
    t.boundary.decision = .fetch ∧ t.ieff = true ∧
    (t.read (t.instrAddr t.pc) = 0o7000 →
      ∃ u, step t = .next u ∧ u.pc = t.pc + 1 ∧ u.nogrant = false ∧
        (t.panelGrantable = false → t.interruptGrantable = true → u.boundary.decision = .interruptGrant))

/-- Derived from R199: PEX then JMP I 0000 in panel mode with FZ set leaves panel mode at the address in panel (0,
0000), in the field of IB, and delays the next grant. With no DMA. -/
def Obligations.PanelExitSequence : Prop :=
  ∀ s t u : State, s.ctrlff = true → s.fz = true → s.env.dma = [] → s.Acknowledges 1 →
    exec .pex s = .next t → exec (.jmp true false 0) t = .next u →
    u.ctrlff = false ∧ u.pexff = false ∧ u.nogrant = true ∧ u.ifr = s.ib ∧ u.iiff = false ∧
      u.pc = s.read ⟨.panel, 0, 0⟩ ∧ u.hltflg = s.hltflg ∧ u.btstrp = s.btstrp ∧ u.pwron = false ∧ u.pnltrp = false ∧
      u.mem = s.mem

/-- Derived from R195: after a device interrupt grant, RMF, ION and JMP I 0000, with no DMA between, resume the
interrupted program: its PC and fields, interrupts enabled, in main mode. -/
def Obligations.InterruptReturnSequence : Prop :=
  ∀ s t u v : State, s.ctrlff = false → s.iiff = false → s.ib = s.ifr → s.env.dma = [] → s.Acknowledges 2 →
    s.mem.wf = true → s.platform.kindOf ⟨.main, 0, 0⟩ = .ram → exec .rmf s.interruptGrant = .next t → exec .ion t = .next u →
    exec (.jmp true false 0) u = .next v →
    v.pc = s.pc ∧ v.ifr = s.ifr ∧ v.ib = s.ib ∧ v.df = s.df ∧ v.ieff = true ∧ v.iiff = false ∧ v.ctrlff = false ∧
      v.ac = s.ac ∧ v.l = s.l ∧ v.mq = s.mq

/-! ### Time -/

/-- Derived from R231 and N9: an instruction has a stated minor-cycle count exactly when it is no stack instruction,
no reserved word and no "Do Not Use" word, and then it is between 4 and 16. That a "Do Not Use" word has none is the
model's choice (log entry 14): by the letter R231 gives 6 to every group 1 word without RTR, RTL or BSW. -/
def Obligations.StatedMinorCycles : Prop :=
  ∀ (i : Instr) (s t : State),
    (minorCycles i s t = none ↔ i.isStack = true ∨ i.isReserved = true ∨ i.hasUndefinedRotate = true) ∧
    ∀ n, minorCycles i s t = some n → 4 ≤ n ∧ n ≤ 16

/-- Derived from R231 and R180: the minor cycles of the data sheet's table. The counts the table gives for a whole
operate group are stated here for listed words; a combined word's count is the model's (log entry 14). -/
def Obligations.MinorCycleTable : Prop :=
  ∀ (s t : State) (i p : Bool) (a : BitVec 7) (x : Field) (device : BitVec 6),
    let ia := (s.instructionAddress p a).toNat
    let col : Nat → Nat → Nat → Nat := fun d n u => if i = false then d else if 8 ≤ ia ∧ ia ≤ 15 then u else n
    (∀ j ∈ [Instr.and i p a, .tad i p a, .dca i p a, .jms i p a], minorCycles j s t = some (col 7 10 12)) ∧
    minorCycles (.isz i p a) s t = some (col 9 12 14 + if t.pc = s.pc then 0 else 2) ∧
    minorCycles (.jmp i p a) s t = some (col 4 7 9) ∧
    (∀ j ∈ [Instr.cpd, .spd], minorCycles j s t = some 5) ∧
    (∀ j ∈ [Instr.iac, .ral, .rar, .cml, .cma, .cll, .cla1, .mql, .mqa, .swp, .cla3, .cam, .acl, .claSwp, .ion, .iof, .pr0,
        .pr1, .pr2, .pr3, .pgo, .pex, .cdf x, .cif x, .cdfCif x, .rdf, .rif, .rmf], minorCycles j s t = some 6) ∧
    (∀ j ∈ [Instr.hlt, .skp, .snl, .szl, .sza, .sna, .sma, .spa, .cla2, .sgt, .caf, .wsr, .skon, .srq],
      minorCycles j s t = some 7) ∧
    (∀ j ∈ [Instr.bsw, .rtl, .rtr, .osr, .las, .rtf, .prs], minorCycles j s t = some 8) ∧
    (∀ j ∈ [Instr.gcf, .gtf, .rib], minorCycles j s t = some 9) ∧
    minorCycles (.iot device x) s t = some (if (s.deviceAnswer (encode (.iot device x))).c1Low = true then 10 else 9)
end

