-- ==== Sys2Proof/Laws/Memory.lean ====
section
/-! SUPPORT. The laws of memory: addresses have different numbers, a read after a write, the words a write leaves alone,
the canonical form, and what a DMA gap can change. -/

namespace Sys2Proof

theorem Addr.key_lt (a : Addr) : a.key < 65536 := by
  obtain ⟨sp, f, o⟩ := a
  have hf := f.isLt
  have ho := o.isLt
  cases sp <;> simp only [Addr.key] <;> omega

theorem Addr.key_inj {a b : Addr} (h : a.key = b.key) : a = b := by
  obtain ⟨sp, f, o⟩ := a
  obtain ⟨sp', f', o'⟩ := b
  have hf := f.isLt
  have ho := o.isLt
  have hf' := f'.isLt
  have ho' := o'.isLt
  have hs : sp = sp' := by
    cases sp <;> cases sp' <;> simp only [Addr.key] at h <;> first | rfl | omega
  subst hs
  have hf2 : f.toNat = f'.toNat := by
    cases sp <;> simp only [Addr.key] at h <;> omega
  have ho2 : o.toNat = o'.toNat := by
    cases sp <;> simp only [Addr.key] at h <;> omega
  rw [BitVec.eq_of_toNat_eq hf2, BitVec.eq_of_toNat_eq ho2]

end Sys2Proof

namespace Sys2Proof.Machine

/-! ### The canonical form -/

/-- The canonical form as a property of the list: what `Memory.wf` decides. -/
def Memory.Canonical (m : Memory) : Prop :=
  (m.map Prod.fst).Pairwise (· < ·) ∧ ∀ c ∈ m, c.1 < 65536 ∧ c.2 ≠ Memory.blank

theorem Memory.wf_iff (m : Memory) : m.wf = true ↔ m.Canonical := by
  simp [Memory.wf, Memory.Canonical]

theorem Memory.canonical_tail {c : WordCell} {m : Memory} (h : Memory.Canonical (c :: m)) : m.Canonical :=
  ⟨(List.pairwise_cons.mp h.1).2, fun d hd => h.2 d (List.mem_cons_of_mem c hd)⟩

theorem Memory.canonical_head_lt {c d : WordCell} {m : Memory} (h : Memory.Canonical (c :: m)) (hd : d ∈ m) :
    c.1 < d.1 :=
  (List.pairwise_cons.mp h.1).1 d.1 (List.mem_map_of_mem hd)

theorem Memory.cons_canonical {n : Nat} {v : Word} {m : Memory} (h : m.Canonical) (hn : n < 65536)
    (hlt : ∀ d ∈ m, n < d.1) : (Memory.cons n v m).Canonical := by
  unfold Memory.cons
  split
  · exact h
  · rename_i hv
    refine ⟨List.pairwise_cons.mpr ⟨?_, h.1⟩, ?_⟩
    · intro k hk
      obtain ⟨d, hd, rfl⟩ := List.mem_map.mp hk
      exact hlt d hd
    · intro c hc
      rcases List.mem_cons.mp hc with rfl | hc
      · exact ⟨hn, hv⟩
      · exact h.2 c hc

theorem Memory.mem_cons_of {n : Nat} {v : Word} {m : Memory} {d : WordCell} (h : d ∈ Memory.cons n v m) :
    d = (n, v) ∨ d ∈ m := by
  unfold Memory.cons at h
  split at h
  · exact .inr h
  · exact List.mem_cons.mp h

theorem Memory.mem_set_of {n : Nat} {v : Word} {m : Memory} {d : WordCell} (h : d ∈ m.set n v) :
    d = (n, v) ∨ d ∈ m := by
  induction m with
  | nil => simpa using Memory.mem_cons_of h
  | cons c rest ih =>
    obtain ⟨k, u⟩ := c
    simp only [Memory.set] at h
    split at h
    · exact Memory.mem_cons_of h
    · split at h
      · exact (Memory.mem_cons_of h).imp_right (List.mem_cons_of_mem _)
      · rcases List.mem_cons.mp h with rfl | h
        · exact .inr List.mem_cons_self
        · exact (ih h).imp_right (List.mem_cons_of_mem _)

theorem Memory.set_canonical {n : Nat} {v : Word} {m : Memory} (h : m.Canonical) (hn : n < 65536) :
    (m.set n v).Canonical := by
  induction m with
  | nil => exact Memory.cons_canonical h hn (by simp)
  | cons c rest ih =>
    obtain ⟨k, u⟩ := c
    have hk := fun d hd => Memory.canonical_head_lt (d := d) h hd
    simp only [Memory.set]
    split
    · rename_i hlt
      refine Memory.cons_canonical h hn fun d hd => ?_
      rcases List.mem_cons.mp hd with rfl | hd
      · exact hlt
      · exact hlt.trans (hk d hd)
    · split
      · rename_i heq
        exact Memory.cons_canonical (Memory.canonical_tail h) hn fun d hd => heq ▸ hk d hd
      · rename_i hge hne
        have hrest := ih (Memory.canonical_tail h)
        refine ⟨List.pairwise_cons.mpr ⟨?_, hrest.1⟩, ?_⟩
        · intro j hj
          obtain ⟨d, hd, rfl⟩ := List.mem_map.mp hj
          rcases Memory.mem_set_of hd with rfl | hd
          · simp only; omega
          · exact hk d hd
        · intro e he
          rcases List.mem_cons.mp he with rfl | he
          · exact h.2 _ List.mem_cons_self
          · exact hrest.2 e he

/-- Replacing a word keeps the canonical form. -/
theorem Memory.set_wf {n : Nat} {v : Word} {m : Memory} (h : m.wf = true) (hn : n < 65536) :
    (m.set n v).wf = true :=
  (Memory.wf_iff _).mpr (Memory.set_canonical ((Memory.wf_iff _).mp h) hn)

/-- A bus write keeps the canonical form. -/
theorem Memory.write_wf {p : Platform} {m : Memory} {a : Addr} {v : Word} (h : m.wf = true) :
    (m.write p a v).wf = true := by
  unfold Memory.write
  split
  · exact Memory.set_wf h a.key_lt
  · exact h

/-- The transfers of a DMA grant keep the canonical form. -/
theorem dmaMemory_wf {p : Platform} {ts : List DmaTransfer} {m : Memory} (h : m.wf = true) :
    (dmaMemory p m ts).wf = true := by
  induction ts generalizing m with
  | nil => exact h
  | cons t rest ih =>
    cases t with
    | read a => exact ih h
    | write a v => exact ih (Memory.write_wf h)

/-! ### Reads after writes -/

theorem Memory.get_cons_same (m : Memory) (n : Nat) (v : Word) (h : ∀ d ∈ m, n < d.1) :
    (Memory.cons n v m).get n = v := by
  have skip : ∀ l : Memory, (∀ d ∈ l, n < d.1) → l.get n = Memory.blank := by
    intro l
    induction l with
    | nil => intro _; rfl
    | cons c rest ih =>
      intro hl
      have hc := hl c List.mem_cons_self
      simp only [Memory.get]
      rw [if_neg (by omega)]
      exact ih fun d hd => hl d (List.mem_cons_of_mem _ hd)
  unfold Memory.cons
  split
  · rename_i hv
    rw [skip m h, hv]
  · simp [Memory.get]

theorem Memory.get_cons_other (m : Memory) {n k : Nat} (v : Word) (h : k ≠ n) :
    (Memory.cons n v m).get k = m.get k := by
  unfold Memory.cons
  split
  · rfl
  · simp only [Memory.get]
    rw [if_neg (Ne.symm h)]

/-- The word written is the word read back. -/
theorem Memory.get_set_same {m : Memory} (h : m.Canonical) (n : Nat) (v : Word) : (m.set n v).get n = v := by
  induction m with
  | nil => exact Memory.get_cons_same [] n v (by simp)
  | cons c rest ih =>
    obtain ⟨k, u⟩ := c
    have hk := fun d hd => Memory.canonical_head_lt (d := d) h hd
    simp only [Memory.set]
    split
    · rename_i hlt
      refine Memory.get_cons_same _ n v fun d hd => ?_
      rcases List.mem_cons.mp hd with rfl | hd
      · exact hlt
      · exact hlt.trans (hk d hd)
    · split
      · rename_i heq
        exact Memory.get_cons_same _ n v fun d hd => heq ▸ hk d hd
      · rename_i hne
        simp only [Memory.get]
        rw [if_neg hne]
        exact ih (Memory.canonical_tail h)

/-- Every other word reads as before. -/
theorem Memory.get_set_other (m : Memory) {n k : Nat} (v : Word) (h : k ≠ n) : (m.set n v).get k = m.get k := by
  induction m with
  | nil => exact Memory.get_cons_other [] v h
  | cons c rest ih =>
    obtain ⟨j, u⟩ := c
    simp only [Memory.set]
    split
    · exact Memory.get_cons_other _ v h
    · split
      · rename_i heq
        rw [Memory.get_cons_other _ v h]
        simp only [Memory.get]
        rw [if_neg (by omega)]
      · simp only [Memory.get]
        split
        · rfl
        · exact ih

/-- A bus write changes no other word. -/
theorem Memory.read_write_other {p : Platform} {m : Memory} {a b : Addr} {v : Word} (h : b ≠ a) :
    (m.write p a v).read p b = m.read p b := by
  have hk : b.key ≠ a.key := fun e => h (Addr.key_inj e)
  unfold Memory.write Memory.read
  cases p.kindOf a <;> cases p.kindOf b <;> first | rfl | exact Memory.get_set_other m v hk

/-- A bus write to RAM is read back. -/
theorem Memory.read_write_same {p : Platform} {m : Memory} {a : Addr} {v : Word} (h : m.wf = true)
    (hram : p.kindOf a = .ram) : (m.write p a v).read p a = v := by
  simp only [Memory.write, Memory.read, hram]
  exact Memory.get_set_same ((Memory.wf_iff _).mp h) _ _

/-- A bus write to a word that is not RAM changes nothing (R46, D2). -/
theorem Memory.write_not_ram {p : Platform} {m : Memory} {a : Addr} {v : Word} (h : p.kindOf a ≠ .ram) :
    m.write p a v = m := by
  unfold Memory.write
  split
  · rename_i hram
    exact absurd hram h
  · rfl

/-- DMA transfers change no word that none of them writes. -/
theorem dmaMemory_read {p : Platform} {ts : List DmaTransfer} {m : Memory} {a : Addr}
    (h : ∀ v, DmaTransfer.write a v ∉ ts) : (dmaMemory p m ts).read p a = m.read p a := by
  induction ts generalizing m with
  | nil => rfl
  | cons t rest ih =>
    have hrest : ∀ v, DmaTransfer.write a v ∉ rest := fun v hv => h v (List.mem_cons_of_mem _ hv)
    cases t with
    | read b => exact ih hrest
    | write b u =>
      have hab : a ≠ b := fun e => h u (e ▸ List.mem_cons_self)
      exact (ih hrest).trans (Memory.read_write_other hab)

/-! ### The same, on states -/

theorem State.read_write_same {s : State} {a : Addr} {v : Word} (h : s.mem.wf = true)
    (hram : s.platform.kindOf a = .ram) : (s.write a v).read a = v :=
  Memory.read_write_same h hram

theorem State.read_write_other {s : State} {a b : Addr} {v : Word} (h : b ≠ a) : (s.write a v).read b = s.read b :=
  Memory.read_write_other h

theorem State.dmaGap_read {s : State} {a : Addr} (h : ¬ s.dmaMayWrite a) : s.dmaGap.read a = s.read a := by
  refine dmaMemory_read fun v hv => h ?_
  cases hd : s.env.dma with
  | nil => rw [hd] at hv; simp at hv
  | cons g rest => exact ⟨g, by simp [hd], v, by simpa [hd] using hv⟩

/-- A gap only uses up what the DMA device is listed to do. -/
theorem State.dmaGap_dmaMayWrite {s : State} {a : Addr} (h : s.dmaGap.dmaMayWrite a) : s.dmaMayWrite a := by
  obtain ⟨g, hg, v, hv⟩ := h
  exact ⟨g, List.mem_of_mem_tail hg, v, hv⟩

/-- With no DMA listed, a gap changes nothing. -/
theorem State.dmaGap_idle {s : State} (h : s.env.dma = []) : s.dmaGap = s := by
  cases s with
  | mk => rename_i env _ _ _ _; cases env; simp_all [State.dmaGap, dmaMemory, dmaEvents]

end Sys2Proof.Machine
end

