-- ==== Sys2Proof/Laws/State.lean ====
section
/-! SUPPORT. What every named update of the state does to every field, one lemma each, true by unfolding: later proofs
read a field of an updated state without unfolding the update. -/

namespace Sys2Proof.Machine

/-! ### Selections and time -/

@[simp] theorem State.doIf_true (s : State) (f : State → State) : s.doIf true f = f s := rfl
@[simp] theorem State.doIf_false (s : State) (f : State → State) : s.doIf false f = s := rfl
@[simp] theorem State.intReqLow_def (s : State) : s.intReqLow = s.pins.intreqLow := rfl
@[simp] theorem State.spend_some (s : State) (k : Nat) : s.spend (some k) = { s with clocks := s.clocks + 2 * k } := rfl
@[simp] theorem State.spend_none (s : State) : s.spend none = { s with untimed := s.untimed + 1 } := rfl

/-! ### write -/

@[simp] theorem State.write_ac (s : State) (a : Addr) (v : Word) : (s.write a v).ac = s.ac := rfl
@[simp] theorem State.write_l (s : State) (a : Addr) (v : Word) : (s.write a v).l = s.l := rfl
@[simp] theorem State.write_mq (s : State) (a : Addr) (v : Word) : (s.write a v).mq = s.mq := rfl
@[simp] theorem State.write_pc (s : State) (a : Addr) (v : Word) : (s.write a v).pc = s.pc := rfl
@[simp] theorem State.write_sp1 (s : State) (a : Addr) (v : Word) : (s.write a v).sp1 = s.sp1 := rfl
@[simp] theorem State.write_sp2 (s : State) (a : Addr) (v : Word) : (s.write a v).sp2 = s.sp2 := rfl
@[simp] theorem State.write_ol (s : State) (a : Addr) (v : Word) : (s.write a v).ol = s.ol := rfl
@[simp] theorem State.write_temp (s : State) (a : Addr) (v : Word) : (s.write a v).temp = s.temp := rfl
@[simp] theorem State.write_ir (s : State) (a : Addr) (v : Word) : (s.write a v).ir = s.ir := rfl
@[simp] theorem State.write_ifr (s : State) (a : Addr) (v : Word) : (s.write a v).ifr = s.ifr := rfl
@[simp] theorem State.write_ib (s : State) (a : Addr) (v : Word) : (s.write a v).ib = s.ib := rfl
@[simp] theorem State.write_isf (s : State) (a : Addr) (v : Word) : (s.write a v).isf = s.isf := rfl
@[simp] theorem State.write_df (s : State) (a : Addr) (v : Word) : (s.write a v).df = s.df := rfl
@[simp] theorem State.write_dsf (s : State) (a : Addr) (v : Word) : (s.write a v).dsf = s.dsf := rfl
@[simp] theorem State.write_ieff (s : State) (a : Addr) (v : Word) : (s.write a v).ieff = s.ieff := rfl
@[simp] theorem State.write_iiff (s : State) (a : Addr) (v : Word) : (s.write a v).iiff = s.iiff := rfl
@[simp] theorem State.write_ctrlff (s : State) (a : Addr) (v : Word) : (s.write a v).ctrlff = s.ctrlff := rfl
@[simp] theorem State.write_fz (s : State) (a : Addr) (v : Word) : (s.write a v).fz = s.fz := rfl
@[simp] theorem State.write_pdf (s : State) (a : Addr) (v : Word) : (s.write a v).pdf = s.pdf := rfl
@[simp] theorem State.write_running (s : State) (a : Addr) (v : Word) : (s.write a v).running = s.running := rfl
@[simp] theorem State.write_pwron (s : State) (a : Addr) (v : Word) : (s.write a v).pwron = s.pwron := rfl
@[simp] theorem State.write_pnltrp (s : State) (a : Addr) (v : Word) : (s.write a v).pnltrp = s.pnltrp := rfl
@[simp] theorem State.write_hltflg (s : State) (a : Addr) (v : Word) : (s.write a v).hltflg = s.hltflg := rfl
@[simp] theorem State.write_btstrp (s : State) (a : Addr) (v : Word) : (s.write a v).btstrp = s.btstrp := rfl
@[simp] theorem State.write_gt (s : State) (a : Addr) (v : Word) : (s.write a v).gt = s.gt := rfl
@[simp] theorem State.write_pexff (s : State) (a : Addr) (v : Word) : (s.write a v).pexff = s.pexff := rfl
@[simp] theorem State.write_intgntff (s : State) (a : Addr) (v : Word) : (s.write a v).intgntff = s.intgntff := rfl
@[simp] theorem State.write_nogrant (s : State) (a : Addr) (v : Word) : (s.write a v).nogrant = s.nogrant := rfl
@[simp] theorem State.write_waiting (s : State) (a : Addr) (v : Word) : (s.write a v).waiting = s.waiting := rfl
@[simp] theorem State.write_mem (s : State) (a : Addr) (v : Word) :
    (s.write a v).mem = s.mem.write s.platform a v := rfl
@[simp] theorem State.write_pins (s : State) (a : Addr) (v : Word) : (s.write a v).pins = s.pins := rfl
@[simp] theorem State.write_env (s : State) (a : Addr) (v : Word) : (s.write a v).env = s.env := rfl
@[simp] theorem State.write_platform (s : State) (a : Addr) (v : Word) : (s.write a v).platform = s.platform := rfl
@[simp] theorem State.write_fresh (s : State) (a : Addr) (v : Word) : (s.write a v).fresh = s.fresh := rfl
@[simp] theorem State.write_clocks (s : State) (a : Addr) (v : Word) : (s.write a v).clocks = s.clocks := rfl
@[simp] theorem State.write_untimed (s : State) (a : Addr) (v : Word) : (s.write a v).untimed = s.untimed := rfl

/-! ### dmaGap -/

@[simp] theorem State.dmaGap_ac (s : State) : s.dmaGap.ac = s.ac := rfl
@[simp] theorem State.dmaGap_l (s : State) : s.dmaGap.l = s.l := rfl
@[simp] theorem State.dmaGap_mq (s : State) : s.dmaGap.mq = s.mq := rfl
@[simp] theorem State.dmaGap_pc (s : State) : s.dmaGap.pc = s.pc := rfl
@[simp] theorem State.dmaGap_sp1 (s : State) : s.dmaGap.sp1 = s.sp1 := rfl
@[simp] theorem State.dmaGap_sp2 (s : State) : s.dmaGap.sp2 = s.sp2 := rfl
@[simp] theorem State.dmaGap_ol (s : State) : s.dmaGap.ol = s.ol := rfl
@[simp] theorem State.dmaGap_temp (s : State) : s.dmaGap.temp = s.temp := rfl
@[simp] theorem State.dmaGap_ir (s : State) : s.dmaGap.ir = s.ir := rfl
@[simp] theorem State.dmaGap_ifr (s : State) : s.dmaGap.ifr = s.ifr := rfl
@[simp] theorem State.dmaGap_ib (s : State) : s.dmaGap.ib = s.ib := rfl
@[simp] theorem State.dmaGap_isf (s : State) : s.dmaGap.isf = s.isf := rfl
@[simp] theorem State.dmaGap_df (s : State) : s.dmaGap.df = s.df := rfl
@[simp] theorem State.dmaGap_dsf (s : State) : s.dmaGap.dsf = s.dsf := rfl
@[simp] theorem State.dmaGap_ieff (s : State) : s.dmaGap.ieff = s.ieff := rfl
@[simp] theorem State.dmaGap_iiff (s : State) : s.dmaGap.iiff = s.iiff := rfl
@[simp] theorem State.dmaGap_ctrlff (s : State) : s.dmaGap.ctrlff = s.ctrlff := rfl
@[simp] theorem State.dmaGap_fz (s : State) : s.dmaGap.fz = s.fz := rfl
@[simp] theorem State.dmaGap_pdf (s : State) : s.dmaGap.pdf = s.pdf := rfl
@[simp] theorem State.dmaGap_running (s : State) : s.dmaGap.running = s.running := rfl
@[simp] theorem State.dmaGap_pwron (s : State) : s.dmaGap.pwron = s.pwron := rfl
@[simp] theorem State.dmaGap_pnltrp (s : State) : s.dmaGap.pnltrp = s.pnltrp := rfl
@[simp] theorem State.dmaGap_hltflg (s : State) : s.dmaGap.hltflg = s.hltflg := rfl
@[simp] theorem State.dmaGap_btstrp (s : State) : s.dmaGap.btstrp = s.btstrp := rfl
@[simp] theorem State.dmaGap_gt (s : State) : s.dmaGap.gt = s.gt := rfl
@[simp] theorem State.dmaGap_pexff (s : State) : s.dmaGap.pexff = s.pexff := rfl
@[simp] theorem State.dmaGap_intgntff (s : State) : s.dmaGap.intgntff = s.intgntff := rfl
@[simp] theorem State.dmaGap_nogrant (s : State) : s.dmaGap.nogrant = s.nogrant := rfl
@[simp] theorem State.dmaGap_waiting (s : State) : s.dmaGap.waiting = s.waiting := rfl
@[simp] theorem State.dmaGap_mem (s : State) : s.dmaGap.mem = dmaMemory s.platform s.mem (s.env.dma.headD []) := rfl
@[simp] theorem State.dmaGap_pins (s : State) : s.dmaGap.pins = s.pins := rfl
@[simp] theorem State.dmaGap_env (s : State) :
    s.dmaGap.env = { s.env with dma := s.env.dma.tail, bus := dmaEvents s.platform s.mem (s.env.dma.headD []) s.env.bus } := rfl
@[simp] theorem State.dmaGap_platform (s : State) : s.dmaGap.platform = s.platform := rfl
@[simp] theorem State.dmaGap_fresh (s : State) : s.dmaGap.fresh = s.fresh := rfl
@[simp] theorem State.dmaGap_clocks (s : State) : s.dmaGap.clocks = s.clocks := rfl
@[simp] theorem State.dmaGap_untimed (s : State) : s.dmaGap.untimed = s.untimed := rfl

/-! ### takeAck -/

@[simp] theorem State.takeAck_ac (s : State) : s.takeAck.ac = s.ac := rfl
@[simp] theorem State.takeAck_l (s : State) : s.takeAck.l = s.l := rfl
@[simp] theorem State.takeAck_mq (s : State) : s.takeAck.mq = s.mq := rfl
@[simp] theorem State.takeAck_pc (s : State) : s.takeAck.pc = s.pc := rfl
@[simp] theorem State.takeAck_sp1 (s : State) : s.takeAck.sp1 = s.sp1 := rfl
@[simp] theorem State.takeAck_sp2 (s : State) : s.takeAck.sp2 = s.sp2 := rfl
@[simp] theorem State.takeAck_ol (s : State) : s.takeAck.ol = s.ol := rfl
@[simp] theorem State.takeAck_temp (s : State) : s.takeAck.temp = s.temp := rfl
@[simp] theorem State.takeAck_ir (s : State) : s.takeAck.ir = s.ir := rfl
@[simp] theorem State.takeAck_ifr (s : State) : s.takeAck.ifr = s.ifr := rfl
@[simp] theorem State.takeAck_ib (s : State) : s.takeAck.ib = s.ib := rfl
@[simp] theorem State.takeAck_isf (s : State) : s.takeAck.isf = s.isf := rfl
@[simp] theorem State.takeAck_df (s : State) : s.takeAck.df = s.df := rfl
@[simp] theorem State.takeAck_dsf (s : State) : s.takeAck.dsf = s.dsf := rfl
@[simp] theorem State.takeAck_ieff (s : State) : s.takeAck.ieff = s.ieff := rfl
@[simp] theorem State.takeAck_iiff (s : State) : s.takeAck.iiff = s.iiff := rfl
@[simp] theorem State.takeAck_ctrlff (s : State) : s.takeAck.ctrlff = s.ctrlff := rfl
@[simp] theorem State.takeAck_fz (s : State) : s.takeAck.fz = s.fz := rfl
@[simp] theorem State.takeAck_pdf (s : State) : s.takeAck.pdf = s.pdf := rfl
@[simp] theorem State.takeAck_running (s : State) : s.takeAck.running = s.running := rfl
@[simp] theorem State.takeAck_pwron (s : State) : s.takeAck.pwron = s.pwron := rfl
@[simp] theorem State.takeAck_pnltrp (s : State) : s.takeAck.pnltrp = s.pnltrp := rfl
@[simp] theorem State.takeAck_hltflg (s : State) : s.takeAck.hltflg = s.hltflg := rfl
@[simp] theorem State.takeAck_btstrp (s : State) : s.takeAck.btstrp = s.btstrp := rfl
@[simp] theorem State.takeAck_gt (s : State) : s.takeAck.gt = s.gt := rfl
@[simp] theorem State.takeAck_pexff (s : State) : s.takeAck.pexff = s.pexff := rfl
@[simp] theorem State.takeAck_intgntff (s : State) : s.takeAck.intgntff = s.intgntff := rfl
@[simp] theorem State.takeAck_nogrant (s : State) : s.takeAck.nogrant = s.nogrant := rfl
@[simp] theorem State.takeAck_waiting (s : State) : s.takeAck.waiting = s.waiting := rfl
@[simp] theorem State.takeAck_mem (s : State) : s.takeAck.mem = s.mem := rfl
@[simp] theorem State.takeAck_pins (s : State) : s.takeAck.pins = s.pins := rfl
@[simp] theorem State.takeAck_env (s : State) :
    s.takeAck.env = { s.env with acks := s.env.acks.tail, waited := s.env.waited + ((s.env.acks.head?).map Ack.wait).getD 0 } := rfl
@[simp] theorem State.takeAck_platform (s : State) : s.takeAck.platform = s.platform := rfl
@[simp] theorem State.takeAck_fresh (s : State) : s.takeAck.fresh = s.fresh := rfl
@[simp] theorem State.takeAck_clocks (s : State) : s.takeAck.clocks = s.clocks := rfl
@[simp] theorem State.takeAck_untimed (s : State) : s.takeAck.untimed = s.untimed := rfl

/-! ### latchTemp -/

@[simp] theorem State.latchTemp_ac (s : State) : s.latchTemp.ac = s.ac := rfl
@[simp] theorem State.latchTemp_l (s : State) : s.latchTemp.l = s.l := rfl
@[simp] theorem State.latchTemp_mq (s : State) : s.latchTemp.mq = s.mq := rfl
@[simp] theorem State.latchTemp_pc (s : State) : s.latchTemp.pc = s.pc := rfl
@[simp] theorem State.latchTemp_sp1 (s : State) : s.latchTemp.sp1 = s.sp1 := rfl
@[simp] theorem State.latchTemp_sp2 (s : State) : s.latchTemp.sp2 = s.sp2 := rfl
@[simp] theorem State.latchTemp_ol (s : State) : s.latchTemp.ol = s.ol := rfl
@[simp] theorem State.latchTemp_temp (s : State) : s.latchTemp.temp = Config.temp s.fresh := rfl
@[simp] theorem State.latchTemp_ir (s : State) : s.latchTemp.ir = s.ir := rfl
@[simp] theorem State.latchTemp_ifr (s : State) : s.latchTemp.ifr = s.ifr := rfl
@[simp] theorem State.latchTemp_ib (s : State) : s.latchTemp.ib = s.ib := rfl
@[simp] theorem State.latchTemp_isf (s : State) : s.latchTemp.isf = s.isf := rfl
@[simp] theorem State.latchTemp_df (s : State) : s.latchTemp.df = s.df := rfl
@[simp] theorem State.latchTemp_dsf (s : State) : s.latchTemp.dsf = s.dsf := rfl
@[simp] theorem State.latchTemp_ieff (s : State) : s.latchTemp.ieff = s.ieff := rfl
@[simp] theorem State.latchTemp_iiff (s : State) : s.latchTemp.iiff = s.iiff := rfl
@[simp] theorem State.latchTemp_ctrlff (s : State) : s.latchTemp.ctrlff = s.ctrlff := rfl
@[simp] theorem State.latchTemp_fz (s : State) : s.latchTemp.fz = s.fz := rfl
@[simp] theorem State.latchTemp_pdf (s : State) : s.latchTemp.pdf = s.pdf := rfl
@[simp] theorem State.latchTemp_running (s : State) : s.latchTemp.running = s.running := rfl
@[simp] theorem State.latchTemp_pwron (s : State) : s.latchTemp.pwron = s.pwron := rfl
@[simp] theorem State.latchTemp_pnltrp (s : State) : s.latchTemp.pnltrp = s.pnltrp := rfl
@[simp] theorem State.latchTemp_hltflg (s : State) : s.latchTemp.hltflg = s.hltflg := rfl
@[simp] theorem State.latchTemp_btstrp (s : State) : s.latchTemp.btstrp = s.btstrp := rfl
@[simp] theorem State.latchTemp_gt (s : State) : s.latchTemp.gt = s.gt := rfl
@[simp] theorem State.latchTemp_pexff (s : State) : s.latchTemp.pexff = s.pexff := rfl
@[simp] theorem State.latchTemp_intgntff (s : State) : s.latchTemp.intgntff = s.intgntff := rfl
@[simp] theorem State.latchTemp_nogrant (s : State) : s.latchTemp.nogrant = s.nogrant := rfl
@[simp] theorem State.latchTemp_waiting (s : State) : s.latchTemp.waiting = s.waiting := rfl
@[simp] theorem State.latchTemp_mem (s : State) : s.latchTemp.mem = s.mem := rfl
@[simp] theorem State.latchTemp_pins (s : State) : s.latchTemp.pins = s.pins := rfl
@[simp] theorem State.latchTemp_env (s : State) : s.latchTemp.env = s.env := rfl
@[simp] theorem State.latchTemp_platform (s : State) : s.latchTemp.platform = s.platform := rfl
@[simp] theorem State.latchTemp_fresh (s : State) : s.latchTemp.fresh = s.fresh + 1 := rfl
@[simp] theorem State.latchTemp_clocks (s : State) : s.latchTemp.clocks = s.clocks := rfl
@[simp] theorem State.latchTemp_untimed (s : State) : s.latchTemp.untimed = s.untimed := rfl

/-! ### skipIf -/

@[simp] theorem State.skipIf_ac (s : State) (c : Bool) : (s.skipIf c).ac = s.ac := rfl
@[simp] theorem State.skipIf_l (s : State) (c : Bool) : (s.skipIf c).l = s.l := rfl
@[simp] theorem State.skipIf_mq (s : State) (c : Bool) : (s.skipIf c).mq = s.mq := rfl
@[simp] theorem State.skipIf_pc (s : State) (c : Bool) : (s.skipIf c).pc = if c then s.pc + 1 else s.pc := rfl
@[simp] theorem State.skipIf_sp1 (s : State) (c : Bool) : (s.skipIf c).sp1 = s.sp1 := rfl
@[simp] theorem State.skipIf_sp2 (s : State) (c : Bool) : (s.skipIf c).sp2 = s.sp2 := rfl
@[simp] theorem State.skipIf_ol (s : State) (c : Bool) : (s.skipIf c).ol = s.ol := rfl
@[simp] theorem State.skipIf_temp (s : State) (c : Bool) : (s.skipIf c).temp = s.temp := rfl
@[simp] theorem State.skipIf_ir (s : State) (c : Bool) : (s.skipIf c).ir = s.ir := rfl
@[simp] theorem State.skipIf_ifr (s : State) (c : Bool) : (s.skipIf c).ifr = s.ifr := rfl
@[simp] theorem State.skipIf_ib (s : State) (c : Bool) : (s.skipIf c).ib = s.ib := rfl
@[simp] theorem State.skipIf_isf (s : State) (c : Bool) : (s.skipIf c).isf = s.isf := rfl
@[simp] theorem State.skipIf_df (s : State) (c : Bool) : (s.skipIf c).df = s.df := rfl
@[simp] theorem State.skipIf_dsf (s : State) (c : Bool) : (s.skipIf c).dsf = s.dsf := rfl
@[simp] theorem State.skipIf_ieff (s : State) (c : Bool) : (s.skipIf c).ieff = s.ieff := rfl
@[simp] theorem State.skipIf_iiff (s : State) (c : Bool) : (s.skipIf c).iiff = s.iiff := rfl
@[simp] theorem State.skipIf_ctrlff (s : State) (c : Bool) : (s.skipIf c).ctrlff = s.ctrlff := rfl
@[simp] theorem State.skipIf_fz (s : State) (c : Bool) : (s.skipIf c).fz = s.fz := rfl
@[simp] theorem State.skipIf_pdf (s : State) (c : Bool) : (s.skipIf c).pdf = s.pdf := rfl
@[simp] theorem State.skipIf_running (s : State) (c : Bool) : (s.skipIf c).running = s.running := rfl
@[simp] theorem State.skipIf_pwron (s : State) (c : Bool) : (s.skipIf c).pwron = s.pwron := rfl
@[simp] theorem State.skipIf_pnltrp (s : State) (c : Bool) : (s.skipIf c).pnltrp = s.pnltrp := rfl
@[simp] theorem State.skipIf_hltflg (s : State) (c : Bool) : (s.skipIf c).hltflg = s.hltflg := rfl
@[simp] theorem State.skipIf_btstrp (s : State) (c : Bool) : (s.skipIf c).btstrp = s.btstrp := rfl
@[simp] theorem State.skipIf_gt (s : State) (c : Bool) : (s.skipIf c).gt = s.gt := rfl
@[simp] theorem State.skipIf_pexff (s : State) (c : Bool) : (s.skipIf c).pexff = s.pexff := rfl
@[simp] theorem State.skipIf_intgntff (s : State) (c : Bool) : (s.skipIf c).intgntff = s.intgntff := rfl
@[simp] theorem State.skipIf_nogrant (s : State) (c : Bool) : (s.skipIf c).nogrant = s.nogrant := rfl
@[simp] theorem State.skipIf_waiting (s : State) (c : Bool) : (s.skipIf c).waiting = s.waiting := rfl
@[simp] theorem State.skipIf_mem (s : State) (c : Bool) : (s.skipIf c).mem = s.mem := rfl
@[simp] theorem State.skipIf_pins (s : State) (c : Bool) : (s.skipIf c).pins = s.pins := rfl
@[simp] theorem State.skipIf_env (s : State) (c : Bool) : (s.skipIf c).env = s.env := rfl
@[simp] theorem State.skipIf_platform (s : State) (c : Bool) : (s.skipIf c).platform = s.platform := rfl
@[simp] theorem State.skipIf_fresh (s : State) (c : Bool) : (s.skipIf c).fresh = s.fresh := rfl
@[simp] theorem State.skipIf_clocks (s : State) (c : Bool) : (s.skipIf c).clocks = s.clocks := rfl
@[simp] theorem State.skipIf_untimed (s : State) (c : Bool) : (s.skipIf c).untimed = s.untimed := rfl

/-! ### clearAc -/

@[simp] theorem State.clearAc_ac (s : State) : s.clearAc.ac = 0 := rfl
@[simp] theorem State.clearAc_l (s : State) : s.clearAc.l = s.l := rfl
@[simp] theorem State.clearAc_mq (s : State) : s.clearAc.mq = s.mq := rfl
@[simp] theorem State.clearAc_pc (s : State) : s.clearAc.pc = s.pc := rfl
@[simp] theorem State.clearAc_sp1 (s : State) : s.clearAc.sp1 = s.sp1 := rfl
@[simp] theorem State.clearAc_sp2 (s : State) : s.clearAc.sp2 = s.sp2 := rfl
@[simp] theorem State.clearAc_ol (s : State) : s.clearAc.ol = s.ol := rfl
@[simp] theorem State.clearAc_temp (s : State) : s.clearAc.temp = s.temp := rfl
@[simp] theorem State.clearAc_ir (s : State) : s.clearAc.ir = s.ir := rfl
@[simp] theorem State.clearAc_ifr (s : State) : s.clearAc.ifr = s.ifr := rfl
@[simp] theorem State.clearAc_ib (s : State) : s.clearAc.ib = s.ib := rfl
@[simp] theorem State.clearAc_isf (s : State) : s.clearAc.isf = s.isf := rfl
@[simp] theorem State.clearAc_df (s : State) : s.clearAc.df = s.df := rfl
@[simp] theorem State.clearAc_dsf (s : State) : s.clearAc.dsf = s.dsf := rfl
@[simp] theorem State.clearAc_ieff (s : State) : s.clearAc.ieff = s.ieff := rfl
@[simp] theorem State.clearAc_iiff (s : State) : s.clearAc.iiff = s.iiff := rfl
@[simp] theorem State.clearAc_ctrlff (s : State) : s.clearAc.ctrlff = s.ctrlff := rfl
@[simp] theorem State.clearAc_fz (s : State) : s.clearAc.fz = s.fz := rfl
@[simp] theorem State.clearAc_pdf (s : State) : s.clearAc.pdf = s.pdf := rfl
@[simp] theorem State.clearAc_running (s : State) : s.clearAc.running = s.running := rfl
@[simp] theorem State.clearAc_pwron (s : State) : s.clearAc.pwron = s.pwron := rfl
@[simp] theorem State.clearAc_pnltrp (s : State) : s.clearAc.pnltrp = s.pnltrp := rfl
@[simp] theorem State.clearAc_hltflg (s : State) : s.clearAc.hltflg = s.hltflg := rfl
@[simp] theorem State.clearAc_btstrp (s : State) : s.clearAc.btstrp = s.btstrp := rfl
@[simp] theorem State.clearAc_gt (s : State) : s.clearAc.gt = s.gt := rfl
@[simp] theorem State.clearAc_pexff (s : State) : s.clearAc.pexff = s.pexff := rfl
@[simp] theorem State.clearAc_intgntff (s : State) : s.clearAc.intgntff = s.intgntff := rfl
@[simp] theorem State.clearAc_nogrant (s : State) : s.clearAc.nogrant = s.nogrant := rfl
@[simp] theorem State.clearAc_waiting (s : State) : s.clearAc.waiting = s.waiting := rfl
@[simp] theorem State.clearAc_mem (s : State) : s.clearAc.mem = s.mem := rfl
@[simp] theorem State.clearAc_pins (s : State) : s.clearAc.pins = s.pins := rfl
@[simp] theorem State.clearAc_env (s : State) : s.clearAc.env = s.env := rfl
@[simp] theorem State.clearAc_platform (s : State) : s.clearAc.platform = s.platform := rfl
@[simp] theorem State.clearAc_fresh (s : State) : s.clearAc.fresh = s.fresh := rfl
@[simp] theorem State.clearAc_clocks (s : State) : s.clearAc.clocks = s.clocks := rfl
@[simp] theorem State.clearAc_untimed (s : State) : s.clearAc.untimed = s.untimed := rfl

/-! ### requestHalt -/

@[simp] theorem State.requestHalt_ac (s : State) : s.requestHalt.ac = s.ac := rfl
@[simp] theorem State.requestHalt_l (s : State) : s.requestHalt.l = s.l := rfl
@[simp] theorem State.requestHalt_mq (s : State) : s.requestHalt.mq = s.mq := rfl
@[simp] theorem State.requestHalt_pc (s : State) : s.requestHalt.pc = s.pc := rfl
@[simp] theorem State.requestHalt_sp1 (s : State) : s.requestHalt.sp1 = s.sp1 := rfl
@[simp] theorem State.requestHalt_sp2 (s : State) : s.requestHalt.sp2 = s.sp2 := rfl
@[simp] theorem State.requestHalt_ol (s : State) : s.requestHalt.ol = s.ol := rfl
@[simp] theorem State.requestHalt_temp (s : State) : s.requestHalt.temp = s.temp := rfl
@[simp] theorem State.requestHalt_ir (s : State) : s.requestHalt.ir = s.ir := rfl
@[simp] theorem State.requestHalt_ifr (s : State) : s.requestHalt.ifr = s.ifr := rfl
@[simp] theorem State.requestHalt_ib (s : State) : s.requestHalt.ib = s.ib := rfl
@[simp] theorem State.requestHalt_isf (s : State) : s.requestHalt.isf = s.isf := rfl
@[simp] theorem State.requestHalt_df (s : State) : s.requestHalt.df = s.df := rfl
@[simp] theorem State.requestHalt_dsf (s : State) : s.requestHalt.dsf = s.dsf := rfl
@[simp] theorem State.requestHalt_ieff (s : State) : s.requestHalt.ieff = s.ieff := rfl
@[simp] theorem State.requestHalt_iiff (s : State) : s.requestHalt.iiff = s.iiff := rfl
@[simp] theorem State.requestHalt_ctrlff (s : State) : s.requestHalt.ctrlff = s.ctrlff := rfl
@[simp] theorem State.requestHalt_fz (s : State) : s.requestHalt.fz = s.fz := rfl
@[simp] theorem State.requestHalt_pdf (s : State) : s.requestHalt.pdf = s.pdf := rfl
@[simp] theorem State.requestHalt_running (s : State) : s.requestHalt.running = s.running := rfl
@[simp] theorem State.requestHalt_pwron (s : State) : s.requestHalt.pwron = s.pwron := rfl
@[simp] theorem State.requestHalt_pnltrp (s : State) : s.requestHalt.pnltrp = s.pnltrp := rfl
@[simp] theorem State.requestHalt_hltflg (s : State) : s.requestHalt.hltflg = true := rfl
@[simp] theorem State.requestHalt_btstrp (s : State) : s.requestHalt.btstrp = s.btstrp := rfl
@[simp] theorem State.requestHalt_gt (s : State) : s.requestHalt.gt = s.gt := rfl
@[simp] theorem State.requestHalt_pexff (s : State) : s.requestHalt.pexff = s.pexff := rfl
@[simp] theorem State.requestHalt_intgntff (s : State) : s.requestHalt.intgntff = s.intgntff := rfl
@[simp] theorem State.requestHalt_nogrant (s : State) : s.requestHalt.nogrant = s.nogrant := rfl
@[simp] theorem State.requestHalt_waiting (s : State) : s.requestHalt.waiting = s.waiting := rfl
@[simp] theorem State.requestHalt_mem (s : State) : s.requestHalt.mem = s.mem := rfl
@[simp] theorem State.requestHalt_pins (s : State) : s.requestHalt.pins = s.pins := rfl
@[simp] theorem State.requestHalt_env (s : State) : s.requestHalt.env = s.env := rfl
@[simp] theorem State.requestHalt_platform (s : State) : s.requestHalt.platform = s.platform := rfl
@[simp] theorem State.requestHalt_fresh (s : State) : s.requestHalt.fresh = s.fresh := rfl
@[simp] theorem State.requestHalt_clocks (s : State) : s.requestHalt.clocks = s.clocks := rfl
@[simp] theorem State.requestHalt_untimed (s : State) : s.requestHalt.untimed = s.untimed := rfl

/-! ### panelTrap -/

@[simp] theorem State.panelTrap_ac (s : State) : s.panelTrap.ac = s.ac := rfl
@[simp] theorem State.panelTrap_l (s : State) : s.panelTrap.l = s.l := rfl
@[simp] theorem State.panelTrap_mq (s : State) : s.panelTrap.mq = s.mq := rfl
@[simp] theorem State.panelTrap_pc (s : State) : s.panelTrap.pc = s.pc := rfl
@[simp] theorem State.panelTrap_sp1 (s : State) : s.panelTrap.sp1 = s.sp1 := rfl
@[simp] theorem State.panelTrap_sp2 (s : State) : s.panelTrap.sp2 = s.sp2 := rfl
@[simp] theorem State.panelTrap_ol (s : State) : s.panelTrap.ol = s.ol := rfl
@[simp] theorem State.panelTrap_temp (s : State) : s.panelTrap.temp = s.temp := rfl
@[simp] theorem State.panelTrap_ir (s : State) : s.panelTrap.ir = s.ir := rfl
@[simp] theorem State.panelTrap_ifr (s : State) : s.panelTrap.ifr = s.ifr := rfl
@[simp] theorem State.panelTrap_ib (s : State) : s.panelTrap.ib = s.ib := rfl
@[simp] theorem State.panelTrap_isf (s : State) : s.panelTrap.isf = s.isf := rfl
@[simp] theorem State.panelTrap_df (s : State) : s.panelTrap.df = s.df := rfl
@[simp] theorem State.panelTrap_dsf (s : State) : s.panelTrap.dsf = s.dsf := rfl
@[simp] theorem State.panelTrap_ieff (s : State) : s.panelTrap.ieff = s.ieff := rfl
@[simp] theorem State.panelTrap_iiff (s : State) : s.panelTrap.iiff = s.iiff := rfl
@[simp] theorem State.panelTrap_ctrlff (s : State) : s.panelTrap.ctrlff = s.ctrlff := rfl
@[simp] theorem State.panelTrap_fz (s : State) : s.panelTrap.fz = s.fz := rfl
@[simp] theorem State.panelTrap_pdf (s : State) : s.panelTrap.pdf = s.pdf := rfl
@[simp] theorem State.panelTrap_running (s : State) : s.panelTrap.running = s.running := rfl
@[simp] theorem State.panelTrap_pwron (s : State) : s.panelTrap.pwron = s.pwron := rfl
@[simp] theorem State.panelTrap_pnltrp (s : State) : s.panelTrap.pnltrp = (s.pnltrp || !s.ctrlff) := rfl
@[simp] theorem State.panelTrap_hltflg (s : State) : s.panelTrap.hltflg = s.hltflg := rfl
@[simp] theorem State.panelTrap_btstrp (s : State) : s.panelTrap.btstrp = s.btstrp := rfl
@[simp] theorem State.panelTrap_gt (s : State) : s.panelTrap.gt = s.gt := rfl
@[simp] theorem State.panelTrap_pexff (s : State) : s.panelTrap.pexff = s.pexff := rfl
@[simp] theorem State.panelTrap_intgntff (s : State) : s.panelTrap.intgntff = s.intgntff := rfl
@[simp] theorem State.panelTrap_nogrant (s : State) : s.panelTrap.nogrant = s.nogrant := rfl
@[simp] theorem State.panelTrap_waiting (s : State) : s.panelTrap.waiting = s.waiting := rfl
@[simp] theorem State.panelTrap_mem (s : State) : s.panelTrap.mem = s.mem := rfl
@[simp] theorem State.panelTrap_pins (s : State) : s.panelTrap.pins = s.pins := rfl
@[simp] theorem State.panelTrap_env (s : State) : s.panelTrap.env = s.env := rfl
@[simp] theorem State.panelTrap_platform (s : State) : s.panelTrap.platform = s.platform := rfl
@[simp] theorem State.panelTrap_fresh (s : State) : s.panelTrap.fresh = s.fresh := rfl
@[simp] theorem State.panelTrap_clocks (s : State) : s.panelTrap.clocks = s.clocks := rfl
@[simp] theorem State.panelTrap_untimed (s : State) : s.panelTrap.untimed = s.untimed := rfl

/-! ### delayGrantIf -/

@[simp] theorem State.delayGrantIf_ac (s : State) (c : Bool) : (s.delayGrantIf c).ac = s.ac := rfl
@[simp] theorem State.delayGrantIf_l (s : State) (c : Bool) : (s.delayGrantIf c).l = s.l := rfl
@[simp] theorem State.delayGrantIf_mq (s : State) (c : Bool) : (s.delayGrantIf c).mq = s.mq := rfl
@[simp] theorem State.delayGrantIf_pc (s : State) (c : Bool) : (s.delayGrantIf c).pc = s.pc := rfl
@[simp] theorem State.delayGrantIf_sp1 (s : State) (c : Bool) : (s.delayGrantIf c).sp1 = s.sp1 := rfl
@[simp] theorem State.delayGrantIf_sp2 (s : State) (c : Bool) : (s.delayGrantIf c).sp2 = s.sp2 := rfl
@[simp] theorem State.delayGrantIf_ol (s : State) (c : Bool) : (s.delayGrantIf c).ol = s.ol := rfl
@[simp] theorem State.delayGrantIf_temp (s : State) (c : Bool) : (s.delayGrantIf c).temp = s.temp := rfl
@[simp] theorem State.delayGrantIf_ir (s : State) (c : Bool) : (s.delayGrantIf c).ir = s.ir := rfl
@[simp] theorem State.delayGrantIf_ifr (s : State) (c : Bool) : (s.delayGrantIf c).ifr = s.ifr := rfl
@[simp] theorem State.delayGrantIf_ib (s : State) (c : Bool) : (s.delayGrantIf c).ib = s.ib := rfl
@[simp] theorem State.delayGrantIf_isf (s : State) (c : Bool) : (s.delayGrantIf c).isf = s.isf := rfl
@[simp] theorem State.delayGrantIf_df (s : State) (c : Bool) : (s.delayGrantIf c).df = s.df := rfl
@[simp] theorem State.delayGrantIf_dsf (s : State) (c : Bool) : (s.delayGrantIf c).dsf = s.dsf := rfl
@[simp] theorem State.delayGrantIf_ieff (s : State) (c : Bool) : (s.delayGrantIf c).ieff = s.ieff := rfl
@[simp] theorem State.delayGrantIf_iiff (s : State) (c : Bool) : (s.delayGrantIf c).iiff = s.iiff := rfl
@[simp] theorem State.delayGrantIf_ctrlff (s : State) (c : Bool) : (s.delayGrantIf c).ctrlff = s.ctrlff := rfl
@[simp] theorem State.delayGrantIf_fz (s : State) (c : Bool) : (s.delayGrantIf c).fz = s.fz := rfl
@[simp] theorem State.delayGrantIf_pdf (s : State) (c : Bool) : (s.delayGrantIf c).pdf = s.pdf := rfl
@[simp] theorem State.delayGrantIf_running (s : State) (c : Bool) : (s.delayGrantIf c).running = s.running := rfl
@[simp] theorem State.delayGrantIf_pwron (s : State) (c : Bool) : (s.delayGrantIf c).pwron = s.pwron := rfl
@[simp] theorem State.delayGrantIf_pnltrp (s : State) (c : Bool) : (s.delayGrantIf c).pnltrp = s.pnltrp := rfl
@[simp] theorem State.delayGrantIf_hltflg (s : State) (c : Bool) : (s.delayGrantIf c).hltflg = s.hltflg := rfl
@[simp] theorem State.delayGrantIf_btstrp (s : State) (c : Bool) : (s.delayGrantIf c).btstrp = s.btstrp := rfl
@[simp] theorem State.delayGrantIf_gt (s : State) (c : Bool) : (s.delayGrantIf c).gt = s.gt := rfl
@[simp] theorem State.delayGrantIf_pexff (s : State) (c : Bool) : (s.delayGrantIf c).pexff = s.pexff := rfl
@[simp] theorem State.delayGrantIf_intgntff (s : State) (c : Bool) : (s.delayGrantIf c).intgntff = s.intgntff := rfl
@[simp] theorem State.delayGrantIf_nogrant (s : State) (c : Bool) : (s.delayGrantIf c).nogrant = (s.nogrant || c) := rfl
@[simp] theorem State.delayGrantIf_waiting (s : State) (c : Bool) : (s.delayGrantIf c).waiting = s.waiting := rfl
@[simp] theorem State.delayGrantIf_mem (s : State) (c : Bool) : (s.delayGrantIf c).mem = s.mem := rfl
@[simp] theorem State.delayGrantIf_pins (s : State) (c : Bool) : (s.delayGrantIf c).pins = s.pins := rfl
@[simp] theorem State.delayGrantIf_env (s : State) (c : Bool) : (s.delayGrantIf c).env = s.env := rfl
@[simp] theorem State.delayGrantIf_platform (s : State) (c : Bool) : (s.delayGrantIf c).platform = s.platform := rfl
@[simp] theorem State.delayGrantIf_fresh (s : State) (c : Bool) : (s.delayGrantIf c).fresh = s.fresh := rfl
@[simp] theorem State.delayGrantIf_clocks (s : State) (c : Bool) : (s.delayGrantIf c).clocks = s.clocks := rfl
@[simp] theorem State.delayGrantIf_untimed (s : State) (c : Bool) : (s.delayGrantIf c).untimed = s.untimed := rfl

/-! ### fieldTransfer -/

@[simp] theorem State.fieldTransfer_ac (s : State) : s.fieldTransfer.ac = s.ac := rfl
@[simp] theorem State.fieldTransfer_l (s : State) : s.fieldTransfer.l = s.l := rfl
@[simp] theorem State.fieldTransfer_mq (s : State) : s.fieldTransfer.mq = s.mq := rfl
@[simp] theorem State.fieldTransfer_pc (s : State) : s.fieldTransfer.pc = s.pc := rfl
@[simp] theorem State.fieldTransfer_sp1 (s : State) : s.fieldTransfer.sp1 = s.sp1 := rfl
@[simp] theorem State.fieldTransfer_sp2 (s : State) : s.fieldTransfer.sp2 = s.sp2 := rfl
@[simp] theorem State.fieldTransfer_ol (s : State) : s.fieldTransfer.ol = s.ol := rfl
@[simp] theorem State.fieldTransfer_temp (s : State) : s.fieldTransfer.temp = s.temp := rfl
@[simp] theorem State.fieldTransfer_ir (s : State) : s.fieldTransfer.ir = s.ir := rfl
@[simp] theorem State.fieldTransfer_ifr (s : State) : s.fieldTransfer.ifr = s.ib := rfl
@[simp] theorem State.fieldTransfer_ib (s : State) : s.fieldTransfer.ib = s.ib := rfl
@[simp] theorem State.fieldTransfer_isf (s : State) : s.fieldTransfer.isf = s.isf := rfl
@[simp] theorem State.fieldTransfer_df (s : State) : s.fieldTransfer.df = s.df := rfl
@[simp] theorem State.fieldTransfer_dsf (s : State) : s.fieldTransfer.dsf = s.dsf := rfl
@[simp] theorem State.fieldTransfer_ieff (s : State) : s.fieldTransfer.ieff = s.ieff := rfl
@[simp] theorem State.fieldTransfer_iiff (s : State) : s.fieldTransfer.iiff = false := rfl
@[simp] theorem State.fieldTransfer_ctrlff (s : State) : s.fieldTransfer.ctrlff = (s.ctrlff && !s.pexff) := rfl
@[simp] theorem State.fieldTransfer_fz (s : State) : s.fieldTransfer.fz = (s.fz && !s.iiff) := rfl
@[simp] theorem State.fieldTransfer_pdf (s : State) : s.fieldTransfer.pdf = s.pdf := rfl
@[simp] theorem State.fieldTransfer_running (s : State) : s.fieldTransfer.running = s.running := rfl
@[simp] theorem State.fieldTransfer_pwron (s : State) : s.fieldTransfer.pwron = s.pwron := rfl
@[simp] theorem State.fieldTransfer_pnltrp (s : State) : s.fieldTransfer.pnltrp = s.pnltrp := rfl
@[simp] theorem State.fieldTransfer_hltflg (s : State) : s.fieldTransfer.hltflg = s.hltflg := rfl
@[simp] theorem State.fieldTransfer_btstrp (s : State) : s.fieldTransfer.btstrp = s.btstrp := rfl
@[simp] theorem State.fieldTransfer_gt (s : State) : s.fieldTransfer.gt = s.gt := rfl
@[simp] theorem State.fieldTransfer_pexff (s : State) : s.fieldTransfer.pexff = false := rfl
@[simp] theorem State.fieldTransfer_intgntff (s : State) : s.fieldTransfer.intgntff = s.intgntff := rfl
@[simp] theorem State.fieldTransfer_nogrant (s : State) : s.fieldTransfer.nogrant = (s.nogrant || s.pexff) := rfl
@[simp] theorem State.fieldTransfer_waiting (s : State) : s.fieldTransfer.waiting = s.waiting := rfl
@[simp] theorem State.fieldTransfer_mem (s : State) : s.fieldTransfer.mem = s.mem := rfl
@[simp] theorem State.fieldTransfer_pins (s : State) : s.fieldTransfer.pins = s.pins := rfl
@[simp] theorem State.fieldTransfer_env (s : State) : s.fieldTransfer.env = s.env := rfl
@[simp] theorem State.fieldTransfer_platform (s : State) : s.fieldTransfer.platform = s.platform := rfl
@[simp] theorem State.fieldTransfer_fresh (s : State) : s.fieldTransfer.fresh = s.fresh := rfl
@[simp] theorem State.fieldTransfer_clocks (s : State) : s.fieldTransfer.clocks = s.clocks := rfl
@[simp] theorem State.fieldTransfer_untimed (s : State) : s.fieldTransfer.untimed = s.untimed := rfl

/-! ### raiseSp1 -/

@[simp] theorem State.raiseSp1_ac (s : State) : s.raiseSp1.ac = s.ac := rfl
@[simp] theorem State.raiseSp1_l (s : State) : s.raiseSp1.l = s.l := rfl
@[simp] theorem State.raiseSp1_mq (s : State) : s.raiseSp1.mq = s.mq := rfl
@[simp] theorem State.raiseSp1_pc (s : State) : s.raiseSp1.pc = s.pc := rfl
@[simp] theorem State.raiseSp1_sp1 (s : State) : s.raiseSp1.sp1 = s.sp1 + 1 := rfl
@[simp] theorem State.raiseSp1_sp2 (s : State) : s.raiseSp1.sp2 = s.sp2 := rfl
@[simp] theorem State.raiseSp1_ol (s : State) : s.raiseSp1.ol = s.ol := rfl
@[simp] theorem State.raiseSp1_temp (s : State) : s.raiseSp1.temp = s.temp := rfl
@[simp] theorem State.raiseSp1_ir (s : State) : s.raiseSp1.ir = s.ir := rfl
@[simp] theorem State.raiseSp1_ifr (s : State) : s.raiseSp1.ifr = s.ifr := rfl
@[simp] theorem State.raiseSp1_ib (s : State) : s.raiseSp1.ib = s.ib := rfl
@[simp] theorem State.raiseSp1_isf (s : State) : s.raiseSp1.isf = s.isf := rfl
@[simp] theorem State.raiseSp1_df (s : State) : s.raiseSp1.df = s.df := rfl
@[simp] theorem State.raiseSp1_dsf (s : State) : s.raiseSp1.dsf = s.dsf := rfl
@[simp] theorem State.raiseSp1_ieff (s : State) : s.raiseSp1.ieff = s.ieff := rfl
@[simp] theorem State.raiseSp1_iiff (s : State) : s.raiseSp1.iiff = s.iiff := rfl
@[simp] theorem State.raiseSp1_ctrlff (s : State) : s.raiseSp1.ctrlff = s.ctrlff := rfl
@[simp] theorem State.raiseSp1_fz (s : State) : s.raiseSp1.fz = s.fz := rfl
@[simp] theorem State.raiseSp1_pdf (s : State) : s.raiseSp1.pdf = s.pdf := rfl
@[simp] theorem State.raiseSp1_running (s : State) : s.raiseSp1.running = s.running := rfl
@[simp] theorem State.raiseSp1_pwron (s : State) : s.raiseSp1.pwron = s.pwron := rfl
@[simp] theorem State.raiseSp1_pnltrp (s : State) : s.raiseSp1.pnltrp = s.pnltrp := rfl
@[simp] theorem State.raiseSp1_hltflg (s : State) : s.raiseSp1.hltflg = s.hltflg := rfl
@[simp] theorem State.raiseSp1_btstrp (s : State) : s.raiseSp1.btstrp = s.btstrp := rfl
@[simp] theorem State.raiseSp1_gt (s : State) : s.raiseSp1.gt = s.gt := rfl
@[simp] theorem State.raiseSp1_pexff (s : State) : s.raiseSp1.pexff = s.pexff := rfl
@[simp] theorem State.raiseSp1_intgntff (s : State) : s.raiseSp1.intgntff = s.intgntff := rfl
@[simp] theorem State.raiseSp1_nogrant (s : State) : s.raiseSp1.nogrant = s.nogrant := rfl
@[simp] theorem State.raiseSp1_waiting (s : State) : s.raiseSp1.waiting = s.waiting := rfl
@[simp] theorem State.raiseSp1_mem (s : State) : s.raiseSp1.mem = s.mem := rfl
@[simp] theorem State.raiseSp1_pins (s : State) : s.raiseSp1.pins = s.pins := rfl
@[simp] theorem State.raiseSp1_env (s : State) : s.raiseSp1.env = s.env := rfl
@[simp] theorem State.raiseSp1_platform (s : State) : s.raiseSp1.platform = s.platform := rfl
@[simp] theorem State.raiseSp1_fresh (s : State) : s.raiseSp1.fresh = s.fresh := rfl
@[simp] theorem State.raiseSp1_clocks (s : State) : s.raiseSp1.clocks = s.clocks := rfl
@[simp] theorem State.raiseSp1_untimed (s : State) : s.raiseSp1.untimed = s.untimed := rfl

/-! ### raiseSp2 -/

@[simp] theorem State.raiseSp2_ac (s : State) : s.raiseSp2.ac = s.ac := rfl
@[simp] theorem State.raiseSp2_l (s : State) : s.raiseSp2.l = s.l := rfl
@[simp] theorem State.raiseSp2_mq (s : State) : s.raiseSp2.mq = s.mq := rfl
@[simp] theorem State.raiseSp2_pc (s : State) : s.raiseSp2.pc = s.pc := rfl
@[simp] theorem State.raiseSp2_sp1 (s : State) : s.raiseSp2.sp1 = s.sp1 := rfl
@[simp] theorem State.raiseSp2_sp2 (s : State) : s.raiseSp2.sp2 = s.sp2 + 1 := rfl
@[simp] theorem State.raiseSp2_ol (s : State) : s.raiseSp2.ol = s.ol := rfl
@[simp] theorem State.raiseSp2_temp (s : State) : s.raiseSp2.temp = s.temp := rfl
@[simp] theorem State.raiseSp2_ir (s : State) : s.raiseSp2.ir = s.ir := rfl
@[simp] theorem State.raiseSp2_ifr (s : State) : s.raiseSp2.ifr = s.ifr := rfl
@[simp] theorem State.raiseSp2_ib (s : State) : s.raiseSp2.ib = s.ib := rfl
@[simp] theorem State.raiseSp2_isf (s : State) : s.raiseSp2.isf = s.isf := rfl
@[simp] theorem State.raiseSp2_df (s : State) : s.raiseSp2.df = s.df := rfl
@[simp] theorem State.raiseSp2_dsf (s : State) : s.raiseSp2.dsf = s.dsf := rfl
@[simp] theorem State.raiseSp2_ieff (s : State) : s.raiseSp2.ieff = s.ieff := rfl
@[simp] theorem State.raiseSp2_iiff (s : State) : s.raiseSp2.iiff = s.iiff := rfl
@[simp] theorem State.raiseSp2_ctrlff (s : State) : s.raiseSp2.ctrlff = s.ctrlff := rfl
@[simp] theorem State.raiseSp2_fz (s : State) : s.raiseSp2.fz = s.fz := rfl
@[simp] theorem State.raiseSp2_pdf (s : State) : s.raiseSp2.pdf = s.pdf := rfl
@[simp] theorem State.raiseSp2_running (s : State) : s.raiseSp2.running = s.running := rfl
@[simp] theorem State.raiseSp2_pwron (s : State) : s.raiseSp2.pwron = s.pwron := rfl
@[simp] theorem State.raiseSp2_pnltrp (s : State) : s.raiseSp2.pnltrp = s.pnltrp := rfl
@[simp] theorem State.raiseSp2_hltflg (s : State) : s.raiseSp2.hltflg = s.hltflg := rfl
@[simp] theorem State.raiseSp2_btstrp (s : State) : s.raiseSp2.btstrp = s.btstrp := rfl
@[simp] theorem State.raiseSp2_gt (s : State) : s.raiseSp2.gt = s.gt := rfl
@[simp] theorem State.raiseSp2_pexff (s : State) : s.raiseSp2.pexff = s.pexff := rfl
@[simp] theorem State.raiseSp2_intgntff (s : State) : s.raiseSp2.intgntff = s.intgntff := rfl
@[simp] theorem State.raiseSp2_nogrant (s : State) : s.raiseSp2.nogrant = s.nogrant := rfl
@[simp] theorem State.raiseSp2_waiting (s : State) : s.raiseSp2.waiting = s.waiting := rfl
@[simp] theorem State.raiseSp2_mem (s : State) : s.raiseSp2.mem = s.mem := rfl
@[simp] theorem State.raiseSp2_pins (s : State) : s.raiseSp2.pins = s.pins := rfl
@[simp] theorem State.raiseSp2_env (s : State) : s.raiseSp2.env = s.env := rfl
@[simp] theorem State.raiseSp2_platform (s : State) : s.raiseSp2.platform = s.platform := rfl
@[simp] theorem State.raiseSp2_fresh (s : State) : s.raiseSp2.fresh = s.fresh := rfl
@[simp] theorem State.raiseSp2_clocks (s : State) : s.raiseSp2.clocks = s.clocks := rfl
@[simp] theorem State.raiseSp2_untimed (s : State) : s.raiseSp2.untimed = s.untimed := rfl

/-! ### emit -/

@[simp] theorem State.emit_ac (s : State) (e : BusEvent) : (s.emit e).ac = s.ac := rfl
@[simp] theorem State.emit_l (s : State) (e : BusEvent) : (s.emit e).l = s.l := rfl
@[simp] theorem State.emit_mq (s : State) (e : BusEvent) : (s.emit e).mq = s.mq := rfl
@[simp] theorem State.emit_pc (s : State) (e : BusEvent) : (s.emit e).pc = s.pc := rfl
@[simp] theorem State.emit_sp1 (s : State) (e : BusEvent) : (s.emit e).sp1 = s.sp1 := rfl
@[simp] theorem State.emit_sp2 (s : State) (e : BusEvent) : (s.emit e).sp2 = s.sp2 := rfl
@[simp] theorem State.emit_ol (s : State) (e : BusEvent) : (s.emit e).ol = s.ol := rfl
@[simp] theorem State.emit_temp (s : State) (e : BusEvent) : (s.emit e).temp = s.temp := rfl
@[simp] theorem State.emit_ir (s : State) (e : BusEvent) : (s.emit e).ir = s.ir := rfl
@[simp] theorem State.emit_ifr (s : State) (e : BusEvent) : (s.emit e).ifr = s.ifr := rfl
@[simp] theorem State.emit_ib (s : State) (e : BusEvent) : (s.emit e).ib = s.ib := rfl
@[simp] theorem State.emit_isf (s : State) (e : BusEvent) : (s.emit e).isf = s.isf := rfl
@[simp] theorem State.emit_df (s : State) (e : BusEvent) : (s.emit e).df = s.df := rfl
@[simp] theorem State.emit_dsf (s : State) (e : BusEvent) : (s.emit e).dsf = s.dsf := rfl
@[simp] theorem State.emit_ieff (s : State) (e : BusEvent) : (s.emit e).ieff = s.ieff := rfl
@[simp] theorem State.emit_iiff (s : State) (e : BusEvent) : (s.emit e).iiff = s.iiff := rfl
@[simp] theorem State.emit_ctrlff (s : State) (e : BusEvent) : (s.emit e).ctrlff = s.ctrlff := rfl
@[simp] theorem State.emit_fz (s : State) (e : BusEvent) : (s.emit e).fz = s.fz := rfl
@[simp] theorem State.emit_pdf (s : State) (e : BusEvent) : (s.emit e).pdf = s.pdf := rfl
@[simp] theorem State.emit_running (s : State) (e : BusEvent) : (s.emit e).running = s.running := rfl
@[simp] theorem State.emit_pwron (s : State) (e : BusEvent) : (s.emit e).pwron = s.pwron := rfl
@[simp] theorem State.emit_pnltrp (s : State) (e : BusEvent) : (s.emit e).pnltrp = s.pnltrp := rfl
@[simp] theorem State.emit_hltflg (s : State) (e : BusEvent) : (s.emit e).hltflg = s.hltflg := rfl
@[simp] theorem State.emit_btstrp (s : State) (e : BusEvent) : (s.emit e).btstrp = s.btstrp := rfl
@[simp] theorem State.emit_gt (s : State) (e : BusEvent) : (s.emit e).gt = s.gt := rfl
@[simp] theorem State.emit_pexff (s : State) (e : BusEvent) : (s.emit e).pexff = s.pexff := rfl
@[simp] theorem State.emit_intgntff (s : State) (e : BusEvent) : (s.emit e).intgntff = s.intgntff := rfl
@[simp] theorem State.emit_nogrant (s : State) (e : BusEvent) : (s.emit e).nogrant = s.nogrant := rfl
@[simp] theorem State.emit_waiting (s : State) (e : BusEvent) : (s.emit e).waiting = s.waiting := rfl
@[simp] theorem State.emit_mem (s : State) (e : BusEvent) : (s.emit e).mem = s.mem := rfl
@[simp] theorem State.emit_pins (s : State) (e : BusEvent) : (s.emit e).pins = s.pins := rfl
@[simp] theorem State.emit_env (s : State) (e : BusEvent) : (s.emit e).env = { s.env with bus := e :: s.env.bus } := rfl
@[simp] theorem State.emit_platform (s : State) (e : BusEvent) : (s.emit e).platform = s.platform := rfl
@[simp] theorem State.emit_fresh (s : State) (e : BusEvent) : (s.emit e).fresh = s.fresh := rfl
@[simp] theorem State.emit_clocks (s : State) (e : BusEvent) : (s.emit e).clocks = s.clocks := rfl
@[simp] theorem State.emit_untimed (s : State) (e : BusEvent) : (s.emit e).untimed = s.untimed := rfl

/-! ### reservedEffect -/

@[simp] theorem State.reservedEffect_ac (s : State) : s.reservedEffect.ac = Config.reservedAc s.fresh := rfl
@[simp] theorem State.reservedEffect_l (s : State) :
    s.reservedEffect.l = (Config.reservedFlags s.fresh).getLsbD 0 := rfl
@[simp] theorem State.reservedEffect_mq (s : State) : s.reservedEffect.mq = s.mq := rfl
@[simp] theorem State.reservedEffect_pc (s : State) : s.reservedEffect.pc = s.pc := rfl
@[simp] theorem State.reservedEffect_sp1 (s : State) : s.reservedEffect.sp1 = s.sp1 := rfl
@[simp] theorem State.reservedEffect_sp2 (s : State) : s.reservedEffect.sp2 = s.sp2 := rfl
@[simp] theorem State.reservedEffect_ol (s : State) : s.reservedEffect.ol = s.ol := rfl
@[simp] theorem State.reservedEffect_temp (s : State) : s.reservedEffect.temp = s.temp := rfl
@[simp] theorem State.reservedEffect_ir (s : State) : s.reservedEffect.ir = s.ir := rfl
@[simp] theorem State.reservedEffect_ifr (s : State) : s.reservedEffect.ifr = s.ifr := rfl
@[simp] theorem State.reservedEffect_ib (s : State) : s.reservedEffect.ib = s.ib := rfl
@[simp] theorem State.reservedEffect_isf (s : State) : s.reservedEffect.isf = s.isf := rfl
@[simp] theorem State.reservedEffect_df (s : State) : s.reservedEffect.df = s.df := rfl
@[simp] theorem State.reservedEffect_dsf (s : State) : s.reservedEffect.dsf = s.dsf := rfl
@[simp] theorem State.reservedEffect_ieff (s : State) :
    s.reservedEffect.ieff = (Config.reservedFlags s.fresh).getLsbD 1 := rfl
@[simp] theorem State.reservedEffect_iiff (s : State) :
    s.reservedEffect.iiff = (s.ib != s.ifr || (Config.reservedFlags s.fresh).getLsbD 2) := rfl
@[simp] theorem State.reservedEffect_ctrlff (s : State) :
    s.reservedEffect.ctrlff = (s.ctrlff && (Config.reservedFlags s.fresh).getLsbD 3) := rfl
@[simp] theorem State.reservedEffect_fz (s : State) :
    s.reservedEffect.fz = (Config.reservedFlags s.fresh).getLsbD 4 := rfl
@[simp] theorem State.reservedEffect_pdf (s : State) :
    s.reservedEffect.pdf = (Config.reservedFlags s.fresh).getLsbD 5 := rfl
@[simp] theorem State.reservedEffect_running (s : State) : s.reservedEffect.running = s.running := rfl
@[simp] theorem State.reservedEffect_pwron (s : State) :
    s.reservedEffect.pwron = (Config.reservedFlags s.fresh).getLsbD 6 := rfl
@[simp] theorem State.reservedEffect_pnltrp (s : State) :
    s.reservedEffect.pnltrp = (Config.reservedFlags s.fresh).getLsbD 7 := rfl
@[simp] theorem State.reservedEffect_hltflg (s : State) :
    s.reservedEffect.hltflg = (Config.reservedFlags s.fresh).getLsbD 8 := rfl
@[simp] theorem State.reservedEffect_btstrp (s : State) :
    s.reservedEffect.btstrp = (Config.reservedFlags s.fresh).getLsbD 9 := rfl
@[simp] theorem State.reservedEffect_gt (s : State) :
    s.reservedEffect.gt = (Config.reservedFlags s.fresh).getLsbD 10 := rfl
@[simp] theorem State.reservedEffect_pexff (s : State) :
    s.reservedEffect.pexff = (Config.reservedFlags s.fresh).getLsbD 11 := rfl
@[simp] theorem State.reservedEffect_intgntff (s : State) : s.reservedEffect.intgntff = s.intgntff := rfl
@[simp] theorem State.reservedEffect_nogrant (s : State) :
    s.reservedEffect.nogrant = (Config.reservedFlags s.fresh).getLsbD 12 := rfl
@[simp] theorem State.reservedEffect_waiting (s : State) : s.reservedEffect.waiting = s.waiting := rfl
@[simp] theorem State.reservedEffect_mem (s : State) : s.reservedEffect.mem = s.mem := rfl
@[simp] theorem State.reservedEffect_pins (s : State) : s.reservedEffect.pins = s.pins := rfl
@[simp] theorem State.reservedEffect_env (s : State) : s.reservedEffect.env = s.env := rfl
@[simp] theorem State.reservedEffect_platform (s : State) : s.reservedEffect.platform = s.platform := rfl
@[simp] theorem State.reservedEffect_fresh (s : State) : s.reservedEffect.fresh = s.fresh + 1 := rfl
@[simp] theorem State.reservedEffect_clocks (s : State) : s.reservedEffect.clocks = s.clocks := rfl
@[simp] theorem State.reservedEffect_untimed (s : State) : s.reservedEffect.untimed = s.untimed := rfl

/-! ### resetHold -/

@[simp] theorem State.resetHold_ac (s : State) : s.resetHold.ac = 0 := rfl
@[simp] theorem State.resetHold_l (s : State) : s.resetHold.l = false := rfl
@[simp] theorem State.resetHold_mq (s : State) : s.resetHold.mq = 0 := rfl
@[simp] theorem State.resetHold_pc (s : State) : s.resetHold.pc = 0o7777 := rfl
@[simp] theorem State.resetHold_sp1 (s : State) : s.resetHold.sp1 = s.sp1 := rfl
@[simp] theorem State.resetHold_sp2 (s : State) : s.resetHold.sp2 = s.sp2 := rfl
@[simp] theorem State.resetHold_ol (s : State) : s.resetHold.ol = s.ol := rfl
@[simp] theorem State.resetHold_temp (s : State) : s.resetHold.temp = s.temp := rfl
@[simp] theorem State.resetHold_ir (s : State) : s.resetHold.ir = s.ir := rfl
@[simp] theorem State.resetHold_ifr (s : State) : s.resetHold.ifr = 0 := rfl
@[simp] theorem State.resetHold_ib (s : State) : s.resetHold.ib = 0 := rfl
@[simp] theorem State.resetHold_isf (s : State) : s.resetHold.isf = 0 := rfl
@[simp] theorem State.resetHold_df (s : State) : s.resetHold.df = 0 := rfl
@[simp] theorem State.resetHold_dsf (s : State) : s.resetHold.dsf = 0 := rfl
@[simp] theorem State.resetHold_ieff (s : State) : s.resetHold.ieff = false := rfl
@[simp] theorem State.resetHold_iiff (s : State) : s.resetHold.iiff = false := rfl
@[simp] theorem State.resetHold_ctrlff (s : State) : s.resetHold.ctrlff = false := rfl
@[simp] theorem State.resetHold_fz (s : State) : s.resetHold.fz = s.fz := rfl
@[simp] theorem State.resetHold_pdf (s : State) : s.resetHold.pdf = s.pdf := rfl
@[simp] theorem State.resetHold_running (s : State) : s.resetHold.running = true := rfl
@[simp] theorem State.resetHold_pwron (s : State) : s.resetHold.pwron = s.platform.strtupLow := rfl
@[simp] theorem State.resetHold_pnltrp (s : State) : s.resetHold.pnltrp = false := rfl
@[simp] theorem State.resetHold_hltflg (s : State) : s.resetHold.hltflg = false := rfl
@[simp] theorem State.resetHold_btstrp (s : State) : s.resetHold.btstrp = false := rfl
@[simp] theorem State.resetHold_gt (s : State) : s.resetHold.gt = false := rfl
@[simp] theorem State.resetHold_pexff (s : State) : s.resetHold.pexff = false := rfl
@[simp] theorem State.resetHold_intgntff (s : State) : s.resetHold.intgntff = false := rfl
@[simp] theorem State.resetHold_nogrant (s : State) : s.resetHold.nogrant = false := rfl
@[simp] theorem State.resetHold_waiting (s : State) : s.resetHold.waiting = s.waiting := rfl
@[simp] theorem State.resetHold_mem (s : State) : s.resetHold.mem = s.mem := rfl
@[simp] theorem State.resetHold_pins (s : State) : s.resetHold.pins = s.pins := rfl
@[simp] theorem State.resetHold_env (s : State) :
    s.resetHold.env = { s.env with bus := .ioClear true :: s.env.bus } := rfl
@[simp] theorem State.resetHold_platform (s : State) : s.resetHold.platform = s.platform := rfl
@[simp] theorem State.resetHold_fresh (s : State) : s.resetHold.fresh = s.fresh := rfl
@[simp] theorem State.resetHold_clocks (s : State) : s.resetHold.clocks = s.clocks := rfl
@[simp] theorem State.resetHold_untimed (s : State) : s.resetHold.untimed = s.untimed := rfl

/-! ### addAc -/

@[simp] theorem State.addAc_ac (s : State) (v : Word) : (s.addAc v).ac = s.ac + v := rfl
@[simp] theorem State.addAc_l (s : State) (v : Word) : (s.addAc v).l = (s.l ^^ carryOut s.ac v) := rfl
@[simp] theorem State.addAc_mq (s : State) (v : Word) : (s.addAc v).mq = s.mq := rfl
@[simp] theorem State.addAc_pc (s : State) (v : Word) : (s.addAc v).pc = s.pc := rfl
@[simp] theorem State.addAc_sp1 (s : State) (v : Word) : (s.addAc v).sp1 = s.sp1 := rfl
@[simp] theorem State.addAc_sp2 (s : State) (v : Word) : (s.addAc v).sp2 = s.sp2 := rfl
@[simp] theorem State.addAc_ol (s : State) (v : Word) : (s.addAc v).ol = s.ol := rfl
@[simp] theorem State.addAc_temp (s : State) (v : Word) : (s.addAc v).temp = s.temp := rfl
@[simp] theorem State.addAc_ir (s : State) (v : Word) : (s.addAc v).ir = s.ir := rfl
@[simp] theorem State.addAc_ifr (s : State) (v : Word) : (s.addAc v).ifr = s.ifr := rfl
@[simp] theorem State.addAc_ib (s : State) (v : Word) : (s.addAc v).ib = s.ib := rfl
@[simp] theorem State.addAc_isf (s : State) (v : Word) : (s.addAc v).isf = s.isf := rfl
@[simp] theorem State.addAc_df (s : State) (v : Word) : (s.addAc v).df = s.df := rfl
@[simp] theorem State.addAc_dsf (s : State) (v : Word) : (s.addAc v).dsf = s.dsf := rfl
@[simp] theorem State.addAc_ieff (s : State) (v : Word) : (s.addAc v).ieff = s.ieff := rfl
@[simp] theorem State.addAc_iiff (s : State) (v : Word) : (s.addAc v).iiff = s.iiff := rfl
@[simp] theorem State.addAc_ctrlff (s : State) (v : Word) : (s.addAc v).ctrlff = s.ctrlff := rfl
@[simp] theorem State.addAc_fz (s : State) (v : Word) : (s.addAc v).fz = s.fz := rfl
@[simp] theorem State.addAc_pdf (s : State) (v : Word) : (s.addAc v).pdf = s.pdf := rfl
@[simp] theorem State.addAc_running (s : State) (v : Word) : (s.addAc v).running = s.running := rfl
@[simp] theorem State.addAc_pwron (s : State) (v : Word) : (s.addAc v).pwron = s.pwron := rfl
@[simp] theorem State.addAc_pnltrp (s : State) (v : Word) : (s.addAc v).pnltrp = s.pnltrp := rfl
@[simp] theorem State.addAc_hltflg (s : State) (v : Word) : (s.addAc v).hltflg = s.hltflg := rfl
@[simp] theorem State.addAc_btstrp (s : State) (v : Word) : (s.addAc v).btstrp = s.btstrp := rfl
@[simp] theorem State.addAc_gt (s : State) (v : Word) : (s.addAc v).gt = s.gt := rfl
@[simp] theorem State.addAc_pexff (s : State) (v : Word) : (s.addAc v).pexff = s.pexff := rfl
@[simp] theorem State.addAc_intgntff (s : State) (v : Word) : (s.addAc v).intgntff = s.intgntff := rfl
@[simp] theorem State.addAc_nogrant (s : State) (v : Word) : (s.addAc v).nogrant = s.nogrant := rfl
@[simp] theorem State.addAc_waiting (s : State) (v : Word) : (s.addAc v).waiting = s.waiting := rfl
@[simp] theorem State.addAc_mem (s : State) (v : Word) : (s.addAc v).mem = s.mem := rfl
@[simp] theorem State.addAc_pins (s : State) (v : Word) : (s.addAc v).pins = s.pins := rfl
@[simp] theorem State.addAc_env (s : State) (v : Word) : (s.addAc v).env = s.env := rfl
@[simp] theorem State.addAc_platform (s : State) (v : Word) : (s.addAc v).platform = s.platform := rfl
@[simp] theorem State.addAc_fresh (s : State) (v : Word) : (s.addAc v).fresh = s.fresh := rfl
@[simp] theorem State.addAc_clocks (s : State) (v : Word) : (s.addAc v).clocks = s.clocks := rfl
@[simp] theorem State.addAc_untimed (s : State) (v : Word) : (s.addAc v).untimed = s.untimed := rfl

/-! ### clearLink -/

@[simp] theorem State.clearLink_ac (s : State) : s.clearLink.ac = s.ac := rfl
@[simp] theorem State.clearLink_l (s : State) : s.clearLink.l = false := rfl
@[simp] theorem State.clearLink_mq (s : State) : s.clearLink.mq = s.mq := rfl
@[simp] theorem State.clearLink_pc (s : State) : s.clearLink.pc = s.pc := rfl
@[simp] theorem State.clearLink_sp1 (s : State) : s.clearLink.sp1 = s.sp1 := rfl
@[simp] theorem State.clearLink_sp2 (s : State) : s.clearLink.sp2 = s.sp2 := rfl
@[simp] theorem State.clearLink_ol (s : State) : s.clearLink.ol = s.ol := rfl
@[simp] theorem State.clearLink_temp (s : State) : s.clearLink.temp = s.temp := rfl
@[simp] theorem State.clearLink_ir (s : State) : s.clearLink.ir = s.ir := rfl
@[simp] theorem State.clearLink_ifr (s : State) : s.clearLink.ifr = s.ifr := rfl
@[simp] theorem State.clearLink_ib (s : State) : s.clearLink.ib = s.ib := rfl
@[simp] theorem State.clearLink_isf (s : State) : s.clearLink.isf = s.isf := rfl
@[simp] theorem State.clearLink_df (s : State) : s.clearLink.df = s.df := rfl
@[simp] theorem State.clearLink_dsf (s : State) : s.clearLink.dsf = s.dsf := rfl
@[simp] theorem State.clearLink_ieff (s : State) : s.clearLink.ieff = s.ieff := rfl
@[simp] theorem State.clearLink_iiff (s : State) : s.clearLink.iiff = s.iiff := rfl
@[simp] theorem State.clearLink_ctrlff (s : State) : s.clearLink.ctrlff = s.ctrlff := rfl
@[simp] theorem State.clearLink_fz (s : State) : s.clearLink.fz = s.fz := rfl
@[simp] theorem State.clearLink_pdf (s : State) : s.clearLink.pdf = s.pdf := rfl
@[simp] theorem State.clearLink_running (s : State) : s.clearLink.running = s.running := rfl
@[simp] theorem State.clearLink_pwron (s : State) : s.clearLink.pwron = s.pwron := rfl
@[simp] theorem State.clearLink_pnltrp (s : State) : s.clearLink.pnltrp = s.pnltrp := rfl
@[simp] theorem State.clearLink_hltflg (s : State) : s.clearLink.hltflg = s.hltflg := rfl
@[simp] theorem State.clearLink_btstrp (s : State) : s.clearLink.btstrp = s.btstrp := rfl
@[simp] theorem State.clearLink_gt (s : State) : s.clearLink.gt = s.gt := rfl
@[simp] theorem State.clearLink_pexff (s : State) : s.clearLink.pexff = s.pexff := rfl
@[simp] theorem State.clearLink_intgntff (s : State) : s.clearLink.intgntff = s.intgntff := rfl
@[simp] theorem State.clearLink_nogrant (s : State) : s.clearLink.nogrant = s.nogrant := rfl
@[simp] theorem State.clearLink_waiting (s : State) : s.clearLink.waiting = s.waiting := rfl
@[simp] theorem State.clearLink_mem (s : State) : s.clearLink.mem = s.mem := rfl
@[simp] theorem State.clearLink_pins (s : State) : s.clearLink.pins = s.pins := rfl
@[simp] theorem State.clearLink_env (s : State) : s.clearLink.env = s.env := rfl
@[simp] theorem State.clearLink_platform (s : State) : s.clearLink.platform = s.platform := rfl
@[simp] theorem State.clearLink_fresh (s : State) : s.clearLink.fresh = s.fresh := rfl
@[simp] theorem State.clearLink_clocks (s : State) : s.clearLink.clocks = s.clocks := rfl
@[simp] theorem State.clearLink_untimed (s : State) : s.clearLink.untimed = s.untimed := rfl

/-! ### complementLink -/

@[simp] theorem State.complementLink_ac (s : State) : s.complementLink.ac = s.ac := rfl
@[simp] theorem State.complementLink_l (s : State) : s.complementLink.l = !s.l := rfl
@[simp] theorem State.complementLink_mq (s : State) : s.complementLink.mq = s.mq := rfl
@[simp] theorem State.complementLink_pc (s : State) : s.complementLink.pc = s.pc := rfl
@[simp] theorem State.complementLink_sp1 (s : State) : s.complementLink.sp1 = s.sp1 := rfl
@[simp] theorem State.complementLink_sp2 (s : State) : s.complementLink.sp2 = s.sp2 := rfl
@[simp] theorem State.complementLink_ol (s : State) : s.complementLink.ol = s.ol := rfl
@[simp] theorem State.complementLink_temp (s : State) : s.complementLink.temp = s.temp := rfl
@[simp] theorem State.complementLink_ir (s : State) : s.complementLink.ir = s.ir := rfl
@[simp] theorem State.complementLink_ifr (s : State) : s.complementLink.ifr = s.ifr := rfl
@[simp] theorem State.complementLink_ib (s : State) : s.complementLink.ib = s.ib := rfl
@[simp] theorem State.complementLink_isf (s : State) : s.complementLink.isf = s.isf := rfl
@[simp] theorem State.complementLink_df (s : State) : s.complementLink.df = s.df := rfl
@[simp] theorem State.complementLink_dsf (s : State) : s.complementLink.dsf = s.dsf := rfl
@[simp] theorem State.complementLink_ieff (s : State) : s.complementLink.ieff = s.ieff := rfl
@[simp] theorem State.complementLink_iiff (s : State) : s.complementLink.iiff = s.iiff := rfl
@[simp] theorem State.complementLink_ctrlff (s : State) : s.complementLink.ctrlff = s.ctrlff := rfl
@[simp] theorem State.complementLink_fz (s : State) : s.complementLink.fz = s.fz := rfl
@[simp] theorem State.complementLink_pdf (s : State) : s.complementLink.pdf = s.pdf := rfl
@[simp] theorem State.complementLink_running (s : State) : s.complementLink.running = s.running := rfl
@[simp] theorem State.complementLink_pwron (s : State) : s.complementLink.pwron = s.pwron := rfl
@[simp] theorem State.complementLink_pnltrp (s : State) : s.complementLink.pnltrp = s.pnltrp := rfl
@[simp] theorem State.complementLink_hltflg (s : State) : s.complementLink.hltflg = s.hltflg := rfl
@[simp] theorem State.complementLink_btstrp (s : State) : s.complementLink.btstrp = s.btstrp := rfl
@[simp] theorem State.complementLink_gt (s : State) : s.complementLink.gt = s.gt := rfl
@[simp] theorem State.complementLink_pexff (s : State) : s.complementLink.pexff = s.pexff := rfl
@[simp] theorem State.complementLink_intgntff (s : State) : s.complementLink.intgntff = s.intgntff := rfl
@[simp] theorem State.complementLink_nogrant (s : State) : s.complementLink.nogrant = s.nogrant := rfl
@[simp] theorem State.complementLink_waiting (s : State) : s.complementLink.waiting = s.waiting := rfl
@[simp] theorem State.complementLink_mem (s : State) : s.complementLink.mem = s.mem := rfl
@[simp] theorem State.complementLink_pins (s : State) : s.complementLink.pins = s.pins := rfl
@[simp] theorem State.complementLink_env (s : State) : s.complementLink.env = s.env := rfl
@[simp] theorem State.complementLink_platform (s : State) : s.complementLink.platform = s.platform := rfl
@[simp] theorem State.complementLink_fresh (s : State) : s.complementLink.fresh = s.fresh := rfl
@[simp] theorem State.complementLink_clocks (s : State) : s.complementLink.clocks = s.clocks := rfl
@[simp] theorem State.complementLink_untimed (s : State) : s.complementLink.untimed = s.untimed := rfl

/-! ### complementAc -/

@[simp] theorem State.complementAc_ac (s : State) : s.complementAc.ac = ~~~s.ac := rfl
@[simp] theorem State.complementAc_l (s : State) : s.complementAc.l = s.l := rfl
@[simp] theorem State.complementAc_mq (s : State) : s.complementAc.mq = s.mq := rfl
@[simp] theorem State.complementAc_pc (s : State) : s.complementAc.pc = s.pc := rfl
@[simp] theorem State.complementAc_sp1 (s : State) : s.complementAc.sp1 = s.sp1 := rfl
@[simp] theorem State.complementAc_sp2 (s : State) : s.complementAc.sp2 = s.sp2 := rfl
@[simp] theorem State.complementAc_ol (s : State) : s.complementAc.ol = s.ol := rfl
@[simp] theorem State.complementAc_temp (s : State) : s.complementAc.temp = s.temp := rfl
@[simp] theorem State.complementAc_ir (s : State) : s.complementAc.ir = s.ir := rfl
@[simp] theorem State.complementAc_ifr (s : State) : s.complementAc.ifr = s.ifr := rfl
@[simp] theorem State.complementAc_ib (s : State) : s.complementAc.ib = s.ib := rfl
@[simp] theorem State.complementAc_isf (s : State) : s.complementAc.isf = s.isf := rfl
@[simp] theorem State.complementAc_df (s : State) : s.complementAc.df = s.df := rfl
@[simp] theorem State.complementAc_dsf (s : State) : s.complementAc.dsf = s.dsf := rfl
@[simp] theorem State.complementAc_ieff (s : State) : s.complementAc.ieff = s.ieff := rfl
@[simp] theorem State.complementAc_iiff (s : State) : s.complementAc.iiff = s.iiff := rfl
@[simp] theorem State.complementAc_ctrlff (s : State) : s.complementAc.ctrlff = s.ctrlff := rfl
@[simp] theorem State.complementAc_fz (s : State) : s.complementAc.fz = s.fz := rfl
@[simp] theorem State.complementAc_pdf (s : State) : s.complementAc.pdf = s.pdf := rfl
@[simp] theorem State.complementAc_running (s : State) : s.complementAc.running = s.running := rfl
@[simp] theorem State.complementAc_pwron (s : State) : s.complementAc.pwron = s.pwron := rfl
@[simp] theorem State.complementAc_pnltrp (s : State) : s.complementAc.pnltrp = s.pnltrp := rfl
@[simp] theorem State.complementAc_hltflg (s : State) : s.complementAc.hltflg = s.hltflg := rfl
@[simp] theorem State.complementAc_btstrp (s : State) : s.complementAc.btstrp = s.btstrp := rfl
@[simp] theorem State.complementAc_gt (s : State) : s.complementAc.gt = s.gt := rfl
@[simp] theorem State.complementAc_pexff (s : State) : s.complementAc.pexff = s.pexff := rfl
@[simp] theorem State.complementAc_intgntff (s : State) : s.complementAc.intgntff = s.intgntff := rfl
@[simp] theorem State.complementAc_nogrant (s : State) : s.complementAc.nogrant = s.nogrant := rfl
@[simp] theorem State.complementAc_waiting (s : State) : s.complementAc.waiting = s.waiting := rfl
@[simp] theorem State.complementAc_mem (s : State) : s.complementAc.mem = s.mem := rfl
@[simp] theorem State.complementAc_pins (s : State) : s.complementAc.pins = s.pins := rfl
@[simp] theorem State.complementAc_env (s : State) : s.complementAc.env = s.env := rfl
@[simp] theorem State.complementAc_platform (s : State) : s.complementAc.platform = s.platform := rfl
@[simp] theorem State.complementAc_fresh (s : State) : s.complementAc.fresh = s.fresh := rfl
@[simp] theorem State.complementAc_clocks (s : State) : s.complementAc.clocks = s.clocks := rfl
@[simp] theorem State.complementAc_untimed (s : State) : s.complementAc.untimed = s.untimed := rfl

/-! ### incrementAc -/

@[simp] theorem State.incrementAc_ac (s : State) : s.incrementAc.ac = s.ac + 1 := rfl
@[simp] theorem State.incrementAc_l (s : State) : s.incrementAc.l = (s.l ^^ carryOut s.ac 1) := rfl
@[simp] theorem State.incrementAc_mq (s : State) : s.incrementAc.mq = s.mq := rfl
@[simp] theorem State.incrementAc_pc (s : State) : s.incrementAc.pc = s.pc := rfl
@[simp] theorem State.incrementAc_sp1 (s : State) : s.incrementAc.sp1 = s.sp1 := rfl
@[simp] theorem State.incrementAc_sp2 (s : State) : s.incrementAc.sp2 = s.sp2 := rfl
@[simp] theorem State.incrementAc_ol (s : State) : s.incrementAc.ol = s.ol := rfl
@[simp] theorem State.incrementAc_temp (s : State) : s.incrementAc.temp = s.temp := rfl
@[simp] theorem State.incrementAc_ir (s : State) : s.incrementAc.ir = s.ir := rfl
@[simp] theorem State.incrementAc_ifr (s : State) : s.incrementAc.ifr = s.ifr := rfl
@[simp] theorem State.incrementAc_ib (s : State) : s.incrementAc.ib = s.ib := rfl
@[simp] theorem State.incrementAc_isf (s : State) : s.incrementAc.isf = s.isf := rfl
@[simp] theorem State.incrementAc_df (s : State) : s.incrementAc.df = s.df := rfl
@[simp] theorem State.incrementAc_dsf (s : State) : s.incrementAc.dsf = s.dsf := rfl
@[simp] theorem State.incrementAc_ieff (s : State) : s.incrementAc.ieff = s.ieff := rfl
@[simp] theorem State.incrementAc_iiff (s : State) : s.incrementAc.iiff = s.iiff := rfl
@[simp] theorem State.incrementAc_ctrlff (s : State) : s.incrementAc.ctrlff = s.ctrlff := rfl
@[simp] theorem State.incrementAc_fz (s : State) : s.incrementAc.fz = s.fz := rfl
@[simp] theorem State.incrementAc_pdf (s : State) : s.incrementAc.pdf = s.pdf := rfl
@[simp] theorem State.incrementAc_running (s : State) : s.incrementAc.running = s.running := rfl
@[simp] theorem State.incrementAc_pwron (s : State) : s.incrementAc.pwron = s.pwron := rfl
@[simp] theorem State.incrementAc_pnltrp (s : State) : s.incrementAc.pnltrp = s.pnltrp := rfl
@[simp] theorem State.incrementAc_hltflg (s : State) : s.incrementAc.hltflg = s.hltflg := rfl
@[simp] theorem State.incrementAc_btstrp (s : State) : s.incrementAc.btstrp = s.btstrp := rfl
@[simp] theorem State.incrementAc_gt (s : State) : s.incrementAc.gt = s.gt := rfl
@[simp] theorem State.incrementAc_pexff (s : State) : s.incrementAc.pexff = s.pexff := rfl
@[simp] theorem State.incrementAc_intgntff (s : State) : s.incrementAc.intgntff = s.intgntff := rfl
@[simp] theorem State.incrementAc_nogrant (s : State) : s.incrementAc.nogrant = s.nogrant := rfl
@[simp] theorem State.incrementAc_waiting (s : State) : s.incrementAc.waiting = s.waiting := rfl
@[simp] theorem State.incrementAc_mem (s : State) : s.incrementAc.mem = s.mem := rfl
@[simp] theorem State.incrementAc_pins (s : State) : s.incrementAc.pins = s.pins := rfl
@[simp] theorem State.incrementAc_env (s : State) : s.incrementAc.env = s.env := rfl
@[simp] theorem State.incrementAc_platform (s : State) : s.incrementAc.platform = s.platform := rfl
@[simp] theorem State.incrementAc_fresh (s : State) : s.incrementAc.fresh = s.fresh := rfl
@[simp] theorem State.incrementAc_clocks (s : State) : s.incrementAc.clocks = s.clocks := rfl
@[simp] theorem State.incrementAc_untimed (s : State) : s.incrementAc.untimed = s.untimed := rfl

/-! ### byteSwap -/

@[simp] theorem State.byteSwap_ac (s : State) : s.byteSwap.ac = ((s.ac &&& 0o77) <<< 6) ||| (s.ac >>> 6) := rfl
@[simp] theorem State.byteSwap_l (s : State) : s.byteSwap.l = s.l := rfl
@[simp] theorem State.byteSwap_mq (s : State) : s.byteSwap.mq = s.mq := rfl
@[simp] theorem State.byteSwap_pc (s : State) : s.byteSwap.pc = s.pc := rfl
@[simp] theorem State.byteSwap_sp1 (s : State) : s.byteSwap.sp1 = s.sp1 := rfl
@[simp] theorem State.byteSwap_sp2 (s : State) : s.byteSwap.sp2 = s.sp2 := rfl
@[simp] theorem State.byteSwap_ol (s : State) : s.byteSwap.ol = s.ol := rfl
@[simp] theorem State.byteSwap_temp (s : State) : s.byteSwap.temp = s.temp := rfl
@[simp] theorem State.byteSwap_ir (s : State) : s.byteSwap.ir = s.ir := rfl
@[simp] theorem State.byteSwap_ifr (s : State) : s.byteSwap.ifr = s.ifr := rfl
@[simp] theorem State.byteSwap_ib (s : State) : s.byteSwap.ib = s.ib := rfl
@[simp] theorem State.byteSwap_isf (s : State) : s.byteSwap.isf = s.isf := rfl
@[simp] theorem State.byteSwap_df (s : State) : s.byteSwap.df = s.df := rfl
@[simp] theorem State.byteSwap_dsf (s : State) : s.byteSwap.dsf = s.dsf := rfl
@[simp] theorem State.byteSwap_ieff (s : State) : s.byteSwap.ieff = s.ieff := rfl
@[simp] theorem State.byteSwap_iiff (s : State) : s.byteSwap.iiff = s.iiff := rfl
@[simp] theorem State.byteSwap_ctrlff (s : State) : s.byteSwap.ctrlff = s.ctrlff := rfl
@[simp] theorem State.byteSwap_fz (s : State) : s.byteSwap.fz = s.fz := rfl
@[simp] theorem State.byteSwap_pdf (s : State) : s.byteSwap.pdf = s.pdf := rfl
@[simp] theorem State.byteSwap_running (s : State) : s.byteSwap.running = s.running := rfl
@[simp] theorem State.byteSwap_pwron (s : State) : s.byteSwap.pwron = s.pwron := rfl
@[simp] theorem State.byteSwap_pnltrp (s : State) : s.byteSwap.pnltrp = s.pnltrp := rfl
@[simp] theorem State.byteSwap_hltflg (s : State) : s.byteSwap.hltflg = s.hltflg := rfl
@[simp] theorem State.byteSwap_btstrp (s : State) : s.byteSwap.btstrp = s.btstrp := rfl
@[simp] theorem State.byteSwap_gt (s : State) : s.byteSwap.gt = s.gt := rfl
@[simp] theorem State.byteSwap_pexff (s : State) : s.byteSwap.pexff = s.pexff := rfl
@[simp] theorem State.byteSwap_intgntff (s : State) : s.byteSwap.intgntff = s.intgntff := rfl
@[simp] theorem State.byteSwap_nogrant (s : State) : s.byteSwap.nogrant = s.nogrant := rfl
@[simp] theorem State.byteSwap_waiting (s : State) : s.byteSwap.waiting = s.waiting := rfl
@[simp] theorem State.byteSwap_mem (s : State) : s.byteSwap.mem = s.mem := rfl
@[simp] theorem State.byteSwap_pins (s : State) : s.byteSwap.pins = s.pins := rfl
@[simp] theorem State.byteSwap_env (s : State) : s.byteSwap.env = s.env := rfl
@[simp] theorem State.byteSwap_platform (s : State) : s.byteSwap.platform = s.platform := rfl
@[simp] theorem State.byteSwap_fresh (s : State) : s.byteSwap.fresh = s.fresh := rfl
@[simp] theorem State.byteSwap_clocks (s : State) : s.byteSwap.clocks = s.clocks := rfl
@[simp] theorem State.byteSwap_untimed (s : State) : s.byteSwap.untimed = s.untimed := rfl

/-! ### rotateLeft -/

@[simp] theorem State.rotateLeft_ac (s : State) : s.rotateLeft.ac = (s.ac <<< 1) ||| bitWord s.l := rfl
@[simp] theorem State.rotateLeft_l (s : State) : s.rotateLeft.l = bit s.ac 0 := rfl
@[simp] theorem State.rotateLeft_mq (s : State) : s.rotateLeft.mq = s.mq := rfl
@[simp] theorem State.rotateLeft_pc (s : State) : s.rotateLeft.pc = s.pc := rfl
@[simp] theorem State.rotateLeft_sp1 (s : State) : s.rotateLeft.sp1 = s.sp1 := rfl
@[simp] theorem State.rotateLeft_sp2 (s : State) : s.rotateLeft.sp2 = s.sp2 := rfl
@[simp] theorem State.rotateLeft_ol (s : State) : s.rotateLeft.ol = s.ol := rfl
@[simp] theorem State.rotateLeft_temp (s : State) : s.rotateLeft.temp = s.temp := rfl
@[simp] theorem State.rotateLeft_ir (s : State) : s.rotateLeft.ir = s.ir := rfl
@[simp] theorem State.rotateLeft_ifr (s : State) : s.rotateLeft.ifr = s.ifr := rfl
@[simp] theorem State.rotateLeft_ib (s : State) : s.rotateLeft.ib = s.ib := rfl
@[simp] theorem State.rotateLeft_isf (s : State) : s.rotateLeft.isf = s.isf := rfl
@[simp] theorem State.rotateLeft_df (s : State) : s.rotateLeft.df = s.df := rfl
@[simp] theorem State.rotateLeft_dsf (s : State) : s.rotateLeft.dsf = s.dsf := rfl
@[simp] theorem State.rotateLeft_ieff (s : State) : s.rotateLeft.ieff = s.ieff := rfl
@[simp] theorem State.rotateLeft_iiff (s : State) : s.rotateLeft.iiff = s.iiff := rfl
@[simp] theorem State.rotateLeft_ctrlff (s : State) : s.rotateLeft.ctrlff = s.ctrlff := rfl
@[simp] theorem State.rotateLeft_fz (s : State) : s.rotateLeft.fz = s.fz := rfl
@[simp] theorem State.rotateLeft_pdf (s : State) : s.rotateLeft.pdf = s.pdf := rfl
@[simp] theorem State.rotateLeft_running (s : State) : s.rotateLeft.running = s.running := rfl
@[simp] theorem State.rotateLeft_pwron (s : State) : s.rotateLeft.pwron = s.pwron := rfl
@[simp] theorem State.rotateLeft_pnltrp (s : State) : s.rotateLeft.pnltrp = s.pnltrp := rfl
@[simp] theorem State.rotateLeft_hltflg (s : State) : s.rotateLeft.hltflg = s.hltflg := rfl
@[simp] theorem State.rotateLeft_btstrp (s : State) : s.rotateLeft.btstrp = s.btstrp := rfl
@[simp] theorem State.rotateLeft_gt (s : State) : s.rotateLeft.gt = s.gt := rfl
@[simp] theorem State.rotateLeft_pexff (s : State) : s.rotateLeft.pexff = s.pexff := rfl
@[simp] theorem State.rotateLeft_intgntff (s : State) : s.rotateLeft.intgntff = s.intgntff := rfl
@[simp] theorem State.rotateLeft_nogrant (s : State) : s.rotateLeft.nogrant = s.nogrant := rfl
@[simp] theorem State.rotateLeft_waiting (s : State) : s.rotateLeft.waiting = s.waiting := rfl
@[simp] theorem State.rotateLeft_mem (s : State) : s.rotateLeft.mem = s.mem := rfl
@[simp] theorem State.rotateLeft_pins (s : State) : s.rotateLeft.pins = s.pins := rfl
@[simp] theorem State.rotateLeft_env (s : State) : s.rotateLeft.env = s.env := rfl
@[simp] theorem State.rotateLeft_platform (s : State) : s.rotateLeft.platform = s.platform := rfl
@[simp] theorem State.rotateLeft_fresh (s : State) : s.rotateLeft.fresh = s.fresh := rfl
@[simp] theorem State.rotateLeft_clocks (s : State) : s.rotateLeft.clocks = s.clocks := rfl
@[simp] theorem State.rotateLeft_untimed (s : State) : s.rotateLeft.untimed = s.untimed := rfl

/-! ### rotateRight -/

@[simp] theorem State.rotateRight_ac (s : State) : s.rotateRight.ac = (s.ac >>> 1) ||| (bitWord s.l <<< 11) := rfl
@[simp] theorem State.rotateRight_l (s : State) : s.rotateRight.l = bit s.ac 11 := rfl
@[simp] theorem State.rotateRight_mq (s : State) : s.rotateRight.mq = s.mq := rfl
@[simp] theorem State.rotateRight_pc (s : State) : s.rotateRight.pc = s.pc := rfl
@[simp] theorem State.rotateRight_sp1 (s : State) : s.rotateRight.sp1 = s.sp1 := rfl
@[simp] theorem State.rotateRight_sp2 (s : State) : s.rotateRight.sp2 = s.sp2 := rfl
@[simp] theorem State.rotateRight_ol (s : State) : s.rotateRight.ol = s.ol := rfl
@[simp] theorem State.rotateRight_temp (s : State) : s.rotateRight.temp = s.temp := rfl
@[simp] theorem State.rotateRight_ir (s : State) : s.rotateRight.ir = s.ir := rfl
@[simp] theorem State.rotateRight_ifr (s : State) : s.rotateRight.ifr = s.ifr := rfl
@[simp] theorem State.rotateRight_ib (s : State) : s.rotateRight.ib = s.ib := rfl
@[simp] theorem State.rotateRight_isf (s : State) : s.rotateRight.isf = s.isf := rfl
@[simp] theorem State.rotateRight_df (s : State) : s.rotateRight.df = s.df := rfl
@[simp] theorem State.rotateRight_dsf (s : State) : s.rotateRight.dsf = s.dsf := rfl
@[simp] theorem State.rotateRight_ieff (s : State) : s.rotateRight.ieff = s.ieff := rfl
@[simp] theorem State.rotateRight_iiff (s : State) : s.rotateRight.iiff = s.iiff := rfl
@[simp] theorem State.rotateRight_ctrlff (s : State) : s.rotateRight.ctrlff = s.ctrlff := rfl
@[simp] theorem State.rotateRight_fz (s : State) : s.rotateRight.fz = s.fz := rfl
@[simp] theorem State.rotateRight_pdf (s : State) : s.rotateRight.pdf = s.pdf := rfl
@[simp] theorem State.rotateRight_running (s : State) : s.rotateRight.running = s.running := rfl
@[simp] theorem State.rotateRight_pwron (s : State) : s.rotateRight.pwron = s.pwron := rfl
@[simp] theorem State.rotateRight_pnltrp (s : State) : s.rotateRight.pnltrp = s.pnltrp := rfl
@[simp] theorem State.rotateRight_hltflg (s : State) : s.rotateRight.hltflg = s.hltflg := rfl
@[simp] theorem State.rotateRight_btstrp (s : State) : s.rotateRight.btstrp = s.btstrp := rfl
@[simp] theorem State.rotateRight_gt (s : State) : s.rotateRight.gt = s.gt := rfl
@[simp] theorem State.rotateRight_pexff (s : State) : s.rotateRight.pexff = s.pexff := rfl
@[simp] theorem State.rotateRight_intgntff (s : State) : s.rotateRight.intgntff = s.intgntff := rfl
@[simp] theorem State.rotateRight_nogrant (s : State) : s.rotateRight.nogrant = s.nogrant := rfl
@[simp] theorem State.rotateRight_waiting (s : State) : s.rotateRight.waiting = s.waiting := rfl
@[simp] theorem State.rotateRight_mem (s : State) : s.rotateRight.mem = s.mem := rfl
@[simp] theorem State.rotateRight_pins (s : State) : s.rotateRight.pins = s.pins := rfl
@[simp] theorem State.rotateRight_env (s : State) : s.rotateRight.env = s.env := rfl
@[simp] theorem State.rotateRight_platform (s : State) : s.rotateRight.platform = s.platform := rfl
@[simp] theorem State.rotateRight_fresh (s : State) : s.rotateRight.fresh = s.fresh := rfl
@[simp] theorem State.rotateRight_clocks (s : State) : s.rotateRight.clocks = s.clocks := rfl
@[simp] theorem State.rotateRight_untimed (s : State) : s.rotateRight.untimed = s.untimed := rfl

/-! ### rotateThree -/

@[simp] theorem State.rotateThree_ac (s : State) : s.rotateThree.ac = (s.ac <<< 3) ||| (s.ac >>> 9) := rfl
@[simp] theorem State.rotateThree_l (s : State) : s.rotateThree.l = s.l := rfl
@[simp] theorem State.rotateThree_mq (s : State) : s.rotateThree.mq = s.mq := rfl
@[simp] theorem State.rotateThree_pc (s : State) : s.rotateThree.pc = s.pc := rfl
@[simp] theorem State.rotateThree_sp1 (s : State) : s.rotateThree.sp1 = s.sp1 := rfl
@[simp] theorem State.rotateThree_sp2 (s : State) : s.rotateThree.sp2 = s.sp2 := rfl
@[simp] theorem State.rotateThree_ol (s : State) : s.rotateThree.ol = s.ol := rfl
@[simp] theorem State.rotateThree_temp (s : State) : s.rotateThree.temp = s.temp := rfl
@[simp] theorem State.rotateThree_ir (s : State) : s.rotateThree.ir = s.ir := rfl
@[simp] theorem State.rotateThree_ifr (s : State) : s.rotateThree.ifr = s.ifr := rfl
@[simp] theorem State.rotateThree_ib (s : State) : s.rotateThree.ib = s.ib := rfl
@[simp] theorem State.rotateThree_isf (s : State) : s.rotateThree.isf = s.isf := rfl
@[simp] theorem State.rotateThree_df (s : State) : s.rotateThree.df = s.df := rfl
@[simp] theorem State.rotateThree_dsf (s : State) : s.rotateThree.dsf = s.dsf := rfl
@[simp] theorem State.rotateThree_ieff (s : State) : s.rotateThree.ieff = s.ieff := rfl
@[simp] theorem State.rotateThree_iiff (s : State) : s.rotateThree.iiff = s.iiff := rfl
@[simp] theorem State.rotateThree_ctrlff (s : State) : s.rotateThree.ctrlff = s.ctrlff := rfl
@[simp] theorem State.rotateThree_fz (s : State) : s.rotateThree.fz = s.fz := rfl
@[simp] theorem State.rotateThree_pdf (s : State) : s.rotateThree.pdf = s.pdf := rfl
@[simp] theorem State.rotateThree_running (s : State) : s.rotateThree.running = s.running := rfl
@[simp] theorem State.rotateThree_pwron (s : State) : s.rotateThree.pwron = s.pwron := rfl
@[simp] theorem State.rotateThree_pnltrp (s : State) : s.rotateThree.pnltrp = s.pnltrp := rfl
@[simp] theorem State.rotateThree_hltflg (s : State) : s.rotateThree.hltflg = s.hltflg := rfl
@[simp] theorem State.rotateThree_btstrp (s : State) : s.rotateThree.btstrp = s.btstrp := rfl
@[simp] theorem State.rotateThree_gt (s : State) : s.rotateThree.gt = s.gt := rfl
@[simp] theorem State.rotateThree_pexff (s : State) : s.rotateThree.pexff = s.pexff := rfl
@[simp] theorem State.rotateThree_intgntff (s : State) : s.rotateThree.intgntff = s.intgntff := rfl
@[simp] theorem State.rotateThree_nogrant (s : State) : s.rotateThree.nogrant = s.nogrant := rfl
@[simp] theorem State.rotateThree_waiting (s : State) : s.rotateThree.waiting = s.waiting := rfl
@[simp] theorem State.rotateThree_mem (s : State) : s.rotateThree.mem = s.mem := rfl
@[simp] theorem State.rotateThree_pins (s : State) : s.rotateThree.pins = s.pins := rfl
@[simp] theorem State.rotateThree_env (s : State) : s.rotateThree.env = s.env := rfl
@[simp] theorem State.rotateThree_platform (s : State) : s.rotateThree.platform = s.platform := rfl
@[simp] theorem State.rotateThree_fresh (s : State) : s.rotateThree.fresh = s.fresh := rfl
@[simp] theorem State.rotateThree_clocks (s : State) : s.rotateThree.clocks = s.clocks := rfl
@[simp] theorem State.rotateThree_untimed (s : State) : s.rotateThree.untimed = s.untimed := rfl

/-! ### rotateUndefined -/

@[simp] theorem State.rotateUndefined_ac (s : State) : s.rotateUndefined.ac = Config.rotateAc s.fresh := rfl
@[simp] theorem State.rotateUndefined_l (s : State) : s.rotateUndefined.l = Config.rotateLink s.fresh := rfl
@[simp] theorem State.rotateUndefined_mq (s : State) : s.rotateUndefined.mq = s.mq := rfl
@[simp] theorem State.rotateUndefined_pc (s : State) : s.rotateUndefined.pc = s.pc := rfl
@[simp] theorem State.rotateUndefined_sp1 (s : State) : s.rotateUndefined.sp1 = s.sp1 := rfl
@[simp] theorem State.rotateUndefined_sp2 (s : State) : s.rotateUndefined.sp2 = s.sp2 := rfl
@[simp] theorem State.rotateUndefined_ol (s : State) : s.rotateUndefined.ol = s.ol := rfl
@[simp] theorem State.rotateUndefined_temp (s : State) : s.rotateUndefined.temp = s.temp := rfl
@[simp] theorem State.rotateUndefined_ir (s : State) : s.rotateUndefined.ir = s.ir := rfl
@[simp] theorem State.rotateUndefined_ifr (s : State) : s.rotateUndefined.ifr = s.ifr := rfl
@[simp] theorem State.rotateUndefined_ib (s : State) : s.rotateUndefined.ib = s.ib := rfl
@[simp] theorem State.rotateUndefined_isf (s : State) : s.rotateUndefined.isf = s.isf := rfl
@[simp] theorem State.rotateUndefined_df (s : State) : s.rotateUndefined.df = s.df := rfl
@[simp] theorem State.rotateUndefined_dsf (s : State) : s.rotateUndefined.dsf = s.dsf := rfl
@[simp] theorem State.rotateUndefined_ieff (s : State) : s.rotateUndefined.ieff = s.ieff := rfl
@[simp] theorem State.rotateUndefined_iiff (s : State) : s.rotateUndefined.iiff = s.iiff := rfl
@[simp] theorem State.rotateUndefined_ctrlff (s : State) : s.rotateUndefined.ctrlff = s.ctrlff := rfl
@[simp] theorem State.rotateUndefined_fz (s : State) : s.rotateUndefined.fz = s.fz := rfl
@[simp] theorem State.rotateUndefined_pdf (s : State) : s.rotateUndefined.pdf = s.pdf := rfl
@[simp] theorem State.rotateUndefined_running (s : State) : s.rotateUndefined.running = s.running := rfl
@[simp] theorem State.rotateUndefined_pwron (s : State) : s.rotateUndefined.pwron = s.pwron := rfl
@[simp] theorem State.rotateUndefined_pnltrp (s : State) : s.rotateUndefined.pnltrp = s.pnltrp := rfl
@[simp] theorem State.rotateUndefined_hltflg (s : State) : s.rotateUndefined.hltflg = s.hltflg := rfl
@[simp] theorem State.rotateUndefined_btstrp (s : State) : s.rotateUndefined.btstrp = s.btstrp := rfl
@[simp] theorem State.rotateUndefined_gt (s : State) : s.rotateUndefined.gt = s.gt := rfl
@[simp] theorem State.rotateUndefined_pexff (s : State) : s.rotateUndefined.pexff = s.pexff := rfl
@[simp] theorem State.rotateUndefined_intgntff (s : State) : s.rotateUndefined.intgntff = s.intgntff := rfl
@[simp] theorem State.rotateUndefined_nogrant (s : State) : s.rotateUndefined.nogrant = s.nogrant := rfl
@[simp] theorem State.rotateUndefined_waiting (s : State) : s.rotateUndefined.waiting = s.waiting := rfl
@[simp] theorem State.rotateUndefined_mem (s : State) : s.rotateUndefined.mem = s.mem := rfl
@[simp] theorem State.rotateUndefined_pins (s : State) : s.rotateUndefined.pins = s.pins := rfl
@[simp] theorem State.rotateUndefined_env (s : State) : s.rotateUndefined.env = s.env := rfl
@[simp] theorem State.rotateUndefined_platform (s : State) : s.rotateUndefined.platform = s.platform := rfl
@[simp] theorem State.rotateUndefined_fresh (s : State) : s.rotateUndefined.fresh = s.fresh + 1 := rfl
@[simp] theorem State.rotateUndefined_clocks (s : State) : s.rotateUndefined.clocks = s.clocks := rfl
@[simp] theorem State.rotateUndefined_untimed (s : State) : s.rotateUndefined.untimed = s.untimed := rfl

/-! ### restoreFlags -/

@[simp] theorem State.restoreFlags_ac (s : State) : s.restoreFlags.ac = s.ac := rfl
@[simp] theorem State.restoreFlags_l (s : State) : s.restoreFlags.l = bit s.ac 0 := rfl
@[simp] theorem State.restoreFlags_mq (s : State) : s.restoreFlags.mq = s.mq := rfl
@[simp] theorem State.restoreFlags_pc (s : State) : s.restoreFlags.pc = s.pc := rfl
@[simp] theorem State.restoreFlags_sp1 (s : State) : s.restoreFlags.sp1 = s.sp1 := rfl
@[simp] theorem State.restoreFlags_sp2 (s : State) : s.restoreFlags.sp2 = s.sp2 := rfl
@[simp] theorem State.restoreFlags_ol (s : State) : s.restoreFlags.ol = s.ol := rfl
@[simp] theorem State.restoreFlags_temp (s : State) : s.restoreFlags.temp = s.temp := rfl
@[simp] theorem State.restoreFlags_ir (s : State) : s.restoreFlags.ir = s.ir := rfl
@[simp] theorem State.restoreFlags_ifr (s : State) : s.restoreFlags.ifr = s.ifr := rfl
@[simp] theorem State.restoreFlags_ib (s : State) : s.restoreFlags.ib = bits3 s.ac 6 := rfl
@[simp] theorem State.restoreFlags_isf (s : State) : s.restoreFlags.isf = s.isf := rfl
@[simp] theorem State.restoreFlags_df (s : State) : s.restoreFlags.df = bits3 s.ac 9 := rfl
@[simp] theorem State.restoreFlags_dsf (s : State) : s.restoreFlags.dsf = s.dsf := rfl
@[simp] theorem State.restoreFlags_ieff (s : State) : s.restoreFlags.ieff = bit s.ac 4 := rfl
@[simp] theorem State.restoreFlags_iiff (s : State) : s.restoreFlags.iiff = true := rfl
@[simp] theorem State.restoreFlags_ctrlff (s : State) : s.restoreFlags.ctrlff = s.ctrlff := rfl
@[simp] theorem State.restoreFlags_fz (s : State) : s.restoreFlags.fz = s.fz := rfl
@[simp] theorem State.restoreFlags_pdf (s : State) : s.restoreFlags.pdf = s.pdf := rfl
@[simp] theorem State.restoreFlags_running (s : State) : s.restoreFlags.running = s.running := rfl
@[simp] theorem State.restoreFlags_pwron (s : State) : s.restoreFlags.pwron = s.pwron := rfl
@[simp] theorem State.restoreFlags_pnltrp (s : State) : s.restoreFlags.pnltrp = s.pnltrp := rfl
@[simp] theorem State.restoreFlags_hltflg (s : State) : s.restoreFlags.hltflg = s.hltflg := rfl
@[simp] theorem State.restoreFlags_btstrp (s : State) : s.restoreFlags.btstrp = s.btstrp := rfl
@[simp] theorem State.restoreFlags_gt (s : State) : s.restoreFlags.gt = bit s.ac 1 := rfl
@[simp] theorem State.restoreFlags_pexff (s : State) : s.restoreFlags.pexff = s.pexff := rfl
@[simp] theorem State.restoreFlags_intgntff (s : State) : s.restoreFlags.intgntff = s.intgntff := rfl
@[simp] theorem State.restoreFlags_nogrant (s : State) : s.restoreFlags.nogrant = s.nogrant := rfl
@[simp] theorem State.restoreFlags_waiting (s : State) : s.restoreFlags.waiting = s.waiting := rfl
@[simp] theorem State.restoreFlags_mem (s : State) : s.restoreFlags.mem = s.mem := rfl
@[simp] theorem State.restoreFlags_pins (s : State) : s.restoreFlags.pins = s.pins := rfl
@[simp] theorem State.restoreFlags_env (s : State) : s.restoreFlags.env = s.env := rfl
@[simp] theorem State.restoreFlags_platform (s : State) : s.restoreFlags.platform = s.platform := rfl
@[simp] theorem State.restoreFlags_fresh (s : State) : s.restoreFlags.fresh = s.fresh := rfl
@[simp] theorem State.restoreFlags_clocks (s : State) : s.restoreFlags.clocks = s.clocks := rfl
@[simp] theorem State.restoreFlags_untimed (s : State) : s.restoreFlags.untimed = s.untimed := rfl

/-! ### group3 -/

@[simp] theorem State.group3_ac (s : State) (cla mqa mql : Bool) :
    (s.group3 cla mqa mql).ac = if mqa then (if mql then s.mq else (if cla then 0 else s.ac) ||| s.mq) else (if mql then 0 else if cla then 0 else s.ac) := rfl
@[simp] theorem State.group3_l (s : State) (cla mqa mql : Bool) :
    (s.group3 cla mqa mql).l = s.l := rfl
@[simp] theorem State.group3_mq (s : State) (cla mqa mql : Bool) :
    (s.group3 cla mqa mql).mq = if mql then (if cla then 0 else s.ac) else s.mq := rfl
@[simp] theorem State.group3_pc (s : State) (cla mqa mql : Bool) :
    (s.group3 cla mqa mql).pc = s.pc := rfl
@[simp] theorem State.group3_sp1 (s : State) (cla mqa mql : Bool) :
    (s.group3 cla mqa mql).sp1 = s.sp1 := rfl
@[simp] theorem State.group3_sp2 (s : State) (cla mqa mql : Bool) :
    (s.group3 cla mqa mql).sp2 = s.sp2 := rfl
@[simp] theorem State.group3_ol (s : State) (cla mqa mql : Bool) :
    (s.group3 cla mqa mql).ol = s.ol := rfl
@[simp] theorem State.group3_temp (s : State) (cla mqa mql : Bool) :
    (s.group3 cla mqa mql).temp = s.temp := rfl
@[simp] theorem State.group3_ir (s : State) (cla mqa mql : Bool) :
    (s.group3 cla mqa mql).ir = s.ir := rfl
@[simp] theorem State.group3_ifr (s : State) (cla mqa mql : Bool) :
    (s.group3 cla mqa mql).ifr = s.ifr := rfl
@[simp] theorem State.group3_ib (s : State) (cla mqa mql : Bool) :
    (s.group3 cla mqa mql).ib = s.ib := rfl
@[simp] theorem State.group3_isf (s : State) (cla mqa mql : Bool) :
    (s.group3 cla mqa mql).isf = s.isf := rfl
@[simp] theorem State.group3_df (s : State) (cla mqa mql : Bool) :
    (s.group3 cla mqa mql).df = s.df := rfl
@[simp] theorem State.group3_dsf (s : State) (cla mqa mql : Bool) :
    (s.group3 cla mqa mql).dsf = s.dsf := rfl
@[simp] theorem State.group3_ieff (s : State) (cla mqa mql : Bool) :
    (s.group3 cla mqa mql).ieff = s.ieff := rfl
@[simp] theorem State.group3_iiff (s : State) (cla mqa mql : Bool) :
    (s.group3 cla mqa mql).iiff = s.iiff := rfl
@[simp] theorem State.group3_ctrlff (s : State) (cla mqa mql : Bool) :
    (s.group3 cla mqa mql).ctrlff = s.ctrlff := rfl
@[simp] theorem State.group3_fz (s : State) (cla mqa mql : Bool) :
    (s.group3 cla mqa mql).fz = s.fz := rfl
@[simp] theorem State.group3_pdf (s : State) (cla mqa mql : Bool) :
    (s.group3 cla mqa mql).pdf = s.pdf := rfl
@[simp] theorem State.group3_running (s : State) (cla mqa mql : Bool) :
    (s.group3 cla mqa mql).running = s.running := rfl
@[simp] theorem State.group3_pwron (s : State) (cla mqa mql : Bool) :
    (s.group3 cla mqa mql).pwron = s.pwron := rfl
@[simp] theorem State.group3_pnltrp (s : State) (cla mqa mql : Bool) :
    (s.group3 cla mqa mql).pnltrp = s.pnltrp := rfl
@[simp] theorem State.group3_hltflg (s : State) (cla mqa mql : Bool) :
    (s.group3 cla mqa mql).hltflg = s.hltflg := rfl
@[simp] theorem State.group3_btstrp (s : State) (cla mqa mql : Bool) :
    (s.group3 cla mqa mql).btstrp = s.btstrp := rfl
@[simp] theorem State.group3_gt (s : State) (cla mqa mql : Bool) :
    (s.group3 cla mqa mql).gt = s.gt := rfl
@[simp] theorem State.group3_pexff (s : State) (cla mqa mql : Bool) :
    (s.group3 cla mqa mql).pexff = s.pexff := rfl
@[simp] theorem State.group3_intgntff (s : State) (cla mqa mql : Bool) :
    (s.group3 cla mqa mql).intgntff = s.intgntff := rfl
@[simp] theorem State.group3_nogrant (s : State) (cla mqa mql : Bool) :
    (s.group3 cla mqa mql).nogrant = s.nogrant := rfl
@[simp] theorem State.group3_waiting (s : State) (cla mqa mql : Bool) :
    (s.group3 cla mqa mql).waiting = s.waiting := rfl
@[simp] theorem State.group3_mem (s : State) (cla mqa mql : Bool) :
    (s.group3 cla mqa mql).mem = s.mem := rfl
@[simp] theorem State.group3_pins (s : State) (cla mqa mql : Bool) :
    (s.group3 cla mqa mql).pins = s.pins := rfl
@[simp] theorem State.group3_env (s : State) (cla mqa mql : Bool) :
    (s.group3 cla mqa mql).env = s.env := rfl
@[simp] theorem State.group3_platform (s : State) (cla mqa mql : Bool) :
    (s.group3 cla mqa mql).platform = s.platform := rfl
@[simp] theorem State.group3_fresh (s : State) (cla mqa mql : Bool) :
    (s.group3 cla mqa mql).fresh = s.fresh := rfl
@[simp] theorem State.group3_clocks (s : State) (cla mqa mql : Bool) :
    (s.group3 cla mqa mql).clocks = s.clocks := rfl
@[simp] theorem State.group3_untimed (s : State) (cla mqa mql : Bool) :
    (s.group3 cla mqa mql).untimed = s.untimed := rfl

/-! ### spend: the record of time only -/

@[simp] theorem State.spend_ac (s : State) (n : Option Nat) : (s.spend n).ac = s.ac := by cases n <;> rfl
@[simp] theorem State.spend_l (s : State) (n : Option Nat) : (s.spend n).l = s.l := by cases n <;> rfl
@[simp] theorem State.spend_mq (s : State) (n : Option Nat) : (s.spend n).mq = s.mq := by cases n <;> rfl
@[simp] theorem State.spend_pc (s : State) (n : Option Nat) : (s.spend n).pc = s.pc := by cases n <;> rfl
@[simp] theorem State.spend_sp1 (s : State) (n : Option Nat) : (s.spend n).sp1 = s.sp1 := by cases n <;> rfl
@[simp] theorem State.spend_sp2 (s : State) (n : Option Nat) : (s.spend n).sp2 = s.sp2 := by cases n <;> rfl
@[simp] theorem State.spend_ol (s : State) (n : Option Nat) : (s.spend n).ol = s.ol := by cases n <;> rfl
@[simp] theorem State.spend_temp (s : State) (n : Option Nat) : (s.spend n).temp = s.temp := by cases n <;> rfl
@[simp] theorem State.spend_ir (s : State) (n : Option Nat) : (s.spend n).ir = s.ir := by cases n <;> rfl
@[simp] theorem State.spend_ifr (s : State) (n : Option Nat) : (s.spend n).ifr = s.ifr := by cases n <;> rfl
@[simp] theorem State.spend_ib (s : State) (n : Option Nat) : (s.spend n).ib = s.ib := by cases n <;> rfl
@[simp] theorem State.spend_isf (s : State) (n : Option Nat) : (s.spend n).isf = s.isf := by cases n <;> rfl
@[simp] theorem State.spend_df (s : State) (n : Option Nat) : (s.spend n).df = s.df := by cases n <;> rfl
@[simp] theorem State.spend_dsf (s : State) (n : Option Nat) : (s.spend n).dsf = s.dsf := by cases n <;> rfl
@[simp] theorem State.spend_ieff (s : State) (n : Option Nat) : (s.spend n).ieff = s.ieff := by cases n <;> rfl
@[simp] theorem State.spend_iiff (s : State) (n : Option Nat) : (s.spend n).iiff = s.iiff := by cases n <;> rfl
@[simp] theorem State.spend_ctrlff (s : State) (n : Option Nat) : (s.spend n).ctrlff = s.ctrlff := by cases n <;> rfl
@[simp] theorem State.spend_fz (s : State) (n : Option Nat) : (s.spend n).fz = s.fz := by cases n <;> rfl
@[simp] theorem State.spend_pdf (s : State) (n : Option Nat) : (s.spend n).pdf = s.pdf := by cases n <;> rfl
@[simp] theorem State.spend_running (s : State) (n : Option Nat) : (s.spend n).running = s.running := by cases n <;> rfl
@[simp] theorem State.spend_pwron (s : State) (n : Option Nat) : (s.spend n).pwron = s.pwron := by cases n <;> rfl
@[simp] theorem State.spend_pnltrp (s : State) (n : Option Nat) : (s.spend n).pnltrp = s.pnltrp := by cases n <;> rfl
@[simp] theorem State.spend_hltflg (s : State) (n : Option Nat) : (s.spend n).hltflg = s.hltflg := by cases n <;> rfl
@[simp] theorem State.spend_btstrp (s : State) (n : Option Nat) : (s.spend n).btstrp = s.btstrp := by cases n <;> rfl
@[simp] theorem State.spend_gt (s : State) (n : Option Nat) : (s.spend n).gt = s.gt := by cases n <;> rfl
@[simp] theorem State.spend_pexff (s : State) (n : Option Nat) : (s.spend n).pexff = s.pexff := by cases n <;> rfl
@[simp] theorem State.spend_intgntff (s : State) (n : Option Nat) : (s.spend n).intgntff = s.intgntff := by cases n <;> rfl
@[simp] theorem State.spend_nogrant (s : State) (n : Option Nat) : (s.spend n).nogrant = s.nogrant := by cases n <;> rfl
@[simp] theorem State.spend_waiting (s : State) (n : Option Nat) : (s.spend n).waiting = s.waiting := by cases n <;> rfl
@[simp] theorem State.spend_mem (s : State) (n : Option Nat) : (s.spend n).mem = s.mem := by cases n <;> rfl
@[simp] theorem State.spend_pins (s : State) (n : Option Nat) : (s.spend n).pins = s.pins := by cases n <;> rfl
@[simp] theorem State.spend_env (s : State) (n : Option Nat) : (s.spend n).env = s.env := by cases n <;> rfl
@[simp] theorem State.spend_platform (s : State) (n : Option Nat) : (s.spend n).platform = s.platform := by cases n <;> rfl
@[simp] theorem State.spend_fresh (s : State) (n : Option Nat) : (s.spend n).fresh = s.fresh := by cases n <;> rfl

/-! ### cutShort: memory, the waiting operation and the count of free values only -/

@[simp] theorem State.cutShort_ac (s : State) : s.cutShort.ac = s.ac := by
  unfold State.cutShort; split <;> rfl
@[simp] theorem State.cutShort_l (s : State) : s.cutShort.l = s.l := by
  unfold State.cutShort; split <;> rfl
@[simp] theorem State.cutShort_mq (s : State) : s.cutShort.mq = s.mq := by
  unfold State.cutShort; split <;> rfl
@[simp] theorem State.cutShort_pc (s : State) : s.cutShort.pc = s.pc := by
  unfold State.cutShort; split <;> rfl
@[simp] theorem State.cutShort_sp1 (s : State) : s.cutShort.sp1 = s.sp1 := by
  unfold State.cutShort; split <;> rfl
@[simp] theorem State.cutShort_sp2 (s : State) : s.cutShort.sp2 = s.sp2 := by
  unfold State.cutShort; split <;> rfl
@[simp] theorem State.cutShort_ol (s : State) : s.cutShort.ol = s.ol := by
  unfold State.cutShort; split <;> rfl
@[simp] theorem State.cutShort_temp (s : State) : s.cutShort.temp = s.temp := by
  unfold State.cutShort; split <;> rfl
@[simp] theorem State.cutShort_ir (s : State) : s.cutShort.ir = s.ir := by
  unfold State.cutShort; split <;> rfl
@[simp] theorem State.cutShort_ifr (s : State) : s.cutShort.ifr = s.ifr := by
  unfold State.cutShort; split <;> rfl
@[simp] theorem State.cutShort_ib (s : State) : s.cutShort.ib = s.ib := by
  unfold State.cutShort; split <;> rfl
@[simp] theorem State.cutShort_isf (s : State) : s.cutShort.isf = s.isf := by
  unfold State.cutShort; split <;> rfl
@[simp] theorem State.cutShort_df (s : State) : s.cutShort.df = s.df := by
  unfold State.cutShort; split <;> rfl
@[simp] theorem State.cutShort_dsf (s : State) : s.cutShort.dsf = s.dsf := by
  unfold State.cutShort; split <;> rfl
@[simp] theorem State.cutShort_ieff (s : State) : s.cutShort.ieff = s.ieff := by
  unfold State.cutShort; split <;> rfl
@[simp] theorem State.cutShort_iiff (s : State) : s.cutShort.iiff = s.iiff := by
  unfold State.cutShort; split <;> rfl
@[simp] theorem State.cutShort_ctrlff (s : State) : s.cutShort.ctrlff = s.ctrlff := by
  unfold State.cutShort; split <;> rfl
@[simp] theorem State.cutShort_fz (s : State) : s.cutShort.fz = s.fz := by
  unfold State.cutShort; split <;> rfl
@[simp] theorem State.cutShort_pdf (s : State) : s.cutShort.pdf = s.pdf := by
  unfold State.cutShort; split <;> rfl
@[simp] theorem State.cutShort_running (s : State) : s.cutShort.running = s.running := by
  unfold State.cutShort; split <;> rfl
@[simp] theorem State.cutShort_pwron (s : State) : s.cutShort.pwron = s.pwron := by
  unfold State.cutShort; split <;> rfl
@[simp] theorem State.cutShort_pnltrp (s : State) : s.cutShort.pnltrp = s.pnltrp := by
  unfold State.cutShort; split <;> rfl
@[simp] theorem State.cutShort_hltflg (s : State) : s.cutShort.hltflg = s.hltflg := by
  unfold State.cutShort; split <;> rfl
@[simp] theorem State.cutShort_btstrp (s : State) : s.cutShort.btstrp = s.btstrp := by
  unfold State.cutShort; split <;> rfl
@[simp] theorem State.cutShort_gt (s : State) : s.cutShort.gt = s.gt := by
  unfold State.cutShort; split <;> rfl
@[simp] theorem State.cutShort_pexff (s : State) : s.cutShort.pexff = s.pexff := by
  unfold State.cutShort; split <;> rfl
@[simp] theorem State.cutShort_intgntff (s : State) : s.cutShort.intgntff = s.intgntff := by
  unfold State.cutShort; split <;> rfl
@[simp] theorem State.cutShort_nogrant (s : State) : s.cutShort.nogrant = s.nogrant := by
  unfold State.cutShort; split <;> rfl
@[simp] theorem State.cutShort_waiting (s : State) : s.cutShort.waiting = none := by
  unfold State.cutShort; split <;> rfl
@[simp] theorem State.cutShort_pins (s : State) : s.cutShort.pins = s.pins := by
  unfold State.cutShort; split <;> rfl
@[simp] theorem State.cutShort_env (s : State) : s.cutShort.env = s.env := by
  unfold State.cutShort; split <;> rfl
@[simp] theorem State.cutShort_platform (s : State) : s.cutShort.platform = s.platform := by
  unfold State.cutShort; split <;> rfl
@[simp] theorem State.cutShort_clocks (s : State) : s.cutShort.clocks = s.clocks := by
  unfold State.cutShort; split <;> rfl
@[simp] theorem State.cutShort_untimed (s : State) : s.cutShort.untimed = s.untimed := by
  unfold State.cutShort; split <;> rfl

end Sys2Proof.Machine
end

