-- ==== Sys2Proof/Laws/Bus.lean ====
section
/-! SUPPORT. What bus operations can do, said once: memory, the record of the environment and the waiting operation change,
nothing else; an acknowledged operation has its effect, one that is not acknowledged has none. -/

namespace Sys2Proof.Machine

/-! ### Runs of bus operations -/

@[simp] theorem Bus.state_done {α : Type} (v : α) (t : State) : (Bus.done v t).state = t := rfl
@[simp] theorem Bus.state_hung {α : Type} (t : State) : (Bus.hung t : Bus α).state = t := rfl
@[simp] theorem Bus.getD_done {α : Type} (v d : α) (t : State) : (Bus.done v t).getD d = v := rfl
@[simp] theorem Bus.getD_hung {α : Type} (d : α) (t : State) : (Bus.hung t).getD d = d := rfl
@[simp] theorem Bus.andThen_done {α β : Type} (v : α) (t : State) (f : α → State → Bus β) :
    (Bus.done v t).andThen f = f v t := rfl
@[simp] theorem Bus.andThen_hung {α β : Type} (t : State) (f : α → State → Bus β) :
    (Bus.hung t).andThen f = .hung t := rfl
@[simp] theorem Bus.finish_done {α : Type} (v : α) (t : State) (f : α → State → State) :
    (Bus.done v t).finish f = f v t := rfl
@[simp] theorem Bus.finish_hung {α : Type} (t : State) (f : α → State → State) : (Bus.hung t).finish f = t := rfl

/-- Whatever holds of the waiting state and of the state after the rest holds after the whole. -/
theorem Bus.finish_of {α : Type} {P : State → Prop} {b : Bus α} {f : α → State → State} (hh : P b.state)
    (hd : ∀ v t, b = .done v t → P (f v t)) : P (b.finish f) := by
  cases b
  · exact hd _ _ rfl
  · exact hh

theorem Bus.andThen_of {α β : Type} {P : State → Prop} {b : Bus α} {f : α → State → Bus β} (hh : P b.state)
    (hd : ∀ v t, b = .done v t → P (f v t).state) : P (b.andThen f).state := by
  cases b
  · exact hd _ _ rfl
  · exact hh

/-! ### Acknowledgements -/

theorem State.acknowledged_iff (s : State) : s.acknowledged = true ↔ s.Acknowledges 1 := by
  unfold State.acknowledged State.Acknowledges
  cases s.env.acks with
  | nil => simp
  | cons k rest => cases k <;> simp

theorem State.Acknowledges.mono {s : State} {m n : Nat} (h : s.Acknowledges n) (hm : m ≤ n) : s.Acknowledges m :=
  fun hk => h (List.take_subset_take_left _ hm hk)

/-- Only the list of acknowledgements matters. -/
theorem State.Acknowledges.of_acks {s t : State} {n : Nat} (h : s.Acknowledges n) (e : t.env.acks = s.env.acks) :
    t.Acknowledges n := by
  unfold State.Acknowledges at *
  rwa [e]

theorem State.Acknowledges.drop {s t : State} {m n : Nat} (h : s.Acknowledges (m + n))
    (e : t.env.acks = s.env.acks.drop m) : t.Acknowledges n := by
  unfold State.Acknowledges at *
  rw [e]
  rw [List.take_add] at h
  exact fun hk => h (List.mem_append_right _ hk)

theorem State.transact_done {α : Type} {s : State} {op : BusOp} {f : State → α × State} (h : s.Acknowledges 1) :
    s.transact op f = .done (f s.takeAck).1 (f s.takeAck).2 := by
  rw [State.transact, if_pos (s.acknowledged_iff.mpr h)]

theorem State.transact_hung {α : Type} {s : State} {op : BusOp} {f : State → α × State}
    (h : s.env.acks.head? = some .never) : s.transact op f = .hung { s.takeAck with waiting := some op } := by
  rw [State.transact, if_neg]
  simp [State.acknowledged, h]

/-- The two ways a bus operation can go. -/
theorem State.transact_cases {α : Type} (s : State) (op : BusOp) (f : State → α × State) :
    s.transact op f = .done (f s.takeAck).1 (f s.takeAck).2 ∨
      s.transact op f = .hung { s.takeAck with waiting := some op } := by
  unfold State.transact
  split
  · exact .inl rfl
  · exact .inr rfl

theorem State.takeAck_head (s : State) :
    ((s.env.acks.head?).map Ack.wait).getD 0 = ((s.env.acks.take 1).map Ack.wait).sum := by
  cases s.env.acks <;> simp

@[simp] theorem State.takeAck_read (s : State) (a : Addr) : s.takeAck.read a = s.read a := rfl

/-! ### What each operation does when it is acknowledged -/

theorem State.readOp_done {s : State} (a : Addr) (h : s.Acknowledges 1) : s.readOp a = .done (s.read a) s.takeAck :=
  State.transact_done h

theorem State.fetchOp_done {s : State} (a : Addr) (h : s.Acknowledges 1) : s.fetchOp a = .done (s.read a) s.takeAck :=
  State.transact_done h

theorem State.writeOp_done {s : State} (a : Addr) (v : Word) (h : s.Acknowledges 1) :
    s.writeOp a v = .done () (s.takeAck.write a v) :=
  State.transact_done h

theorem State.busRead_done {s : State} (a : Addr) (h : s.Acknowledges 1) :
    s.busRead a = .done (s.dmaGap.read a) s.dmaGap.takeAck :=
  State.readOp_done a h

theorem State.busWrite_done {s : State} (a : Addr) (v : Word) (h : s.Acknowledges 1) :
    s.busWrite a v = .done () (s.dmaGap.takeAck.write a v) :=
  State.writeOp_done a v h

theorem State.busIncrement_done {s : State} (a : Addr) (h : s.Acknowledges 2) :
    s.busIncrement a = .done (s.dmaGap.read a + 1) (s.dmaGap.takeAck.takeAck.write a (s.dmaGap.read a + 1)) := by
  have h2 : s.dmaGap.takeAck.Acknowledges 1 := h.drop (m := 1) (by simp)
  rw [State.busIncrement, State.busRead_done a (h.mono (by decide)), Bus.andThen_done, State.writeOp_done _ _ h2]
  rfl

theorem State.switchBus_done {s : State} (h : s.Acknowledges 1) : s.switchBus = .done s.switchWord
    { s.dmaGap with
      env := { s.dmaGap.takeAck.env with
        switches := s.env.switches.tail, bus := .switchRead s.df :: s.dmaGap.env.bus }
      fresh := s.fresh + 1 } :=
  State.transact_done h

theorem State.switchWrite_done {s : State} (h : s.Acknowledges 1) :
    s.switchWrite = .done () (s.dmaGap.takeAck.emit (.switchWrite s.df s.ac)) :=
  State.transact_done h

theorem State.deviceBus_done {s : State} (w : Word) (h : s.Acknowledges 1) : s.deviceBus w = .done (s.deviceAnswer w)
    { s.dmaGap with
      env := { s.dmaGap.takeAck.env with
        answers := s.env.answers.tail, bus := .iot w s.df s.ac :: s.dmaGap.env.bus }
      fresh := s.fresh + 1 } :=
  State.transact_done h

/-! ### What each operation leaves when it is not acknowledged -/

theorem State.HangsAfter.head {s : State} (h : s.HangsAfter 0) : s.env.acks.head? = some .never := by
  rw [List.head?_eq_getElem?]
  exact h.2

/-- Only the list of acknowledgements matters. -/
theorem State.HangsAfter.of_acks {s t : State} {k : Nat} (h : s.HangsAfter k) (e : t.env.acks = s.env.acks) :
    t.HangsAfter k :=
  ⟨h.1.of_acks e, by rw [e]; exact h.2⟩

/-- An operation that is never acknowledged is waited in, and has no effect. -/
theorem State.transact_held {α : Type} {s : State} {op : BusOp} {f : State → α × State} (h : s.HangsAfter 0) :
    s.transact op f = .hung (s.heldAfter 0 op) := by
  rw [State.transact_hung h.head]
  simp [State.heldAfter, State.takeAck, h.head, Ack.wait]

theorem State.busRead_held {s : State} (a : Addr) (h : s.HangsAfter 0) : s.busRead a = .hung (s.heldIn (.read a)) := by
  rw [State.busRead, State.readOp, State.transact_held (s := s.dmaGap) (h.of_acks rfl), State.heldIn]

theorem State.busWrite_held {s : State} (a : Addr) (v : Word) (h : s.HangsAfter 0) :
    s.busWrite a v = .hung (s.heldIn (.write a v)) := by
  rw [State.busWrite, State.writeOp, State.transact_held (s := s.dmaGap) (h.of_acks rfl), State.heldIn]

theorem State.busIncrement_held {s : State} (a : Addr) (h : s.HangsAfter 0) :
    s.busIncrement a = .hung (s.heldIn (.read a)) := by
  rw [State.busIncrement, State.busRead_held a h, Bus.andThen_hung]

/-- The write of a read-modify-write is waited in: the word is read, nothing is written. -/
theorem State.busIncrement_held_write {s : State} (a : Addr) (h : s.HangsAfter 1) :
    s.busIncrement a = .hung (s.dmaGap.heldAfter 1 (.write a (s.dmaGap.read a + 1))) := by
  have ht : s.dmaGap.takeAck.HangsAfter 0 := ⟨by simp [State.Acknowledges], by simpa using h.2⟩
  rw [State.busIncrement, State.busRead_done a h.1, Bus.andThen_done, State.writeOp, State.transact_held ht,
    Bus.andThen_hung]
  simp [State.heldAfter, State.takeAck, State.takeAck_head]

theorem State.switchBus_held {s : State} (h : s.HangsAfter 0) : s.switchBus = .hung (s.heldIn (.switchRead s.df)) := by
  rw [State.switchBus, State.transact_held (s := s.dmaGap) (h.of_acks rfl), State.heldIn]

theorem State.switchWrite_held {s : State} (h : s.HangsAfter 0) :
    s.switchWrite = .hung (s.heldIn (.switchWrite s.df s.ac)) := by
  rw [State.switchWrite, State.transact_held (s := s.dmaGap) (h.of_acks rfl), State.heldIn]

theorem State.deviceBus_held {s : State} (w : Word) (h : s.HangsAfter 0) :
    s.deviceBus w = .hung (s.heldIn (.iot w s.df s.ac)) := by
  rw [State.deviceBus, State.transact_held (s := s.dmaGap) (h.of_acks rfl), State.heldIn]

/-! ### What changes: memory, the environment, the waiting operation -/

/-- `t` differs from `s` in memory, environment and the waiting operation only: what a run of memory operations can do. -/
def State.BusOnly (s t : State) : Prop :=
  t = { s with mem := t.mem, env := t.env, waiting := t.waiting }

theorem State.BusOnly.refl (s : State) : s.BusOnly s := rfl

theorem State.BusOnly.trans {s t u : State} (h : s.BusOnly t) (h' : t.BusOnly u) : s.BusOnly u := by
  unfold State.BusOnly at *
  rw [h'] at *
  rw [h]

theorem State.dmaGap_busOnly (s : State) : s.BusOnly s.dmaGap := rfl

theorem State.readOp_busOnly (s : State) (a : Addr) : s.BusOnly (s.readOp a).state := by
  rcases s.transact_cases (.read a) (fun t => (t.read a, t)) with h | h <;> rw [State.readOp, h] <;> rfl

theorem State.fetchOp_busOnly (s : State) (a : Addr) : s.BusOnly (s.fetchOp a).state := by
  rcases s.transact_cases (.fetch a) (fun t => (t.read a, t)) with h | h <;> rw [State.fetchOp, h] <;> rfl

theorem State.writeOp_busOnly (s : State) (a : Addr) (v : Word) : s.BusOnly (s.writeOp a v).state := by
  rcases s.transact_cases (.write a v) (fun t => ((), t.write a v)) with h | h <;> rw [State.writeOp, h] <;> rfl

theorem State.busRead_busOnly (s : State) (a : Addr) : s.BusOnly (s.busRead a).state :=
  s.dmaGap_busOnly.trans (s.dmaGap.readOp_busOnly a)

theorem State.busWrite_busOnly (s : State) (a : Addr) (v : Word) : s.BusOnly (s.busWrite a v).state :=
  s.dmaGap_busOnly.trans (s.dmaGap.writeOp_busOnly a v)

theorem State.busIncrement_busOnly (s : State) (a : Addr) : s.BusOnly (s.busIncrement a).state := by
  refine Bus.andThen_of (s.busRead_busOnly a) fun v t h => ?_
  have ht : s.BusOnly t := by simpa [h] using s.busRead_busOnly a
  refine ht.trans (Bus.andThen_of (t.writeOp_busOnly a (v + 1)) fun _ u hu => ?_)
  have h' := t.writeOp_busOnly a (v + 1)
  rwa [hu] at h'

theorem State.switchWrite_busOnly (s : State) : s.BusOnly s.switchWrite.state := by
  rcases s.dmaGap.transact_cases (.switchWrite s.df s.ac) (fun t => ((), t.emit (.switchWrite t.df t.ac))) with h | h <;>
    rw [State.switchWrite, h] <;> rfl

/-- A device transaction also uses up a free value. -/
theorem State.deviceBus_frame (s : State) (w : Word) : (s.deviceBus w).state = { s with
    mem := (s.deviceBus w).state.mem
    env := (s.deviceBus w).state.env
    waiting := (s.deviceBus w).state.waiting
    fresh := (s.deviceBus w).state.fresh } := by
  rcases s.dmaGap.transact_cases (.iot w s.df s.ac) (fun t => (t.deviceAnswer w,
    { t with
      env := { t.env with answers := t.env.answers.tail, bus := .iot w t.df t.ac :: t.env.bus }
      fresh := t.fresh + 1 })) with h | h <;> rw [State.deviceBus, h] <;> rfl

/-- What follows a run of memory operations: a property that every state they can leave has, and that the rest of the
instruction gives, holds of the state the instruction leaves, waiting or not. -/
theorem Bus.finish_frame {α : Type} {P : State → Prop} {s : State} {b : Bus α} {f : α → State → State}
    (hb : s.BusOnly b.state) (hh : ∀ t, s.BusOnly t → P t) (hd : ∀ v t, s.BusOnly t → P (f v t)) : P (b.finish f) := by
  cases b
  · exact hd _ _ hb
  · exact hh _ hb

/-- The same for operations that follow operations. -/
theorem Bus.andThen_busOnly {α β : Type} {s : State} {b : Bus α} {f : α → State → Bus β} (hb : s.BusOnly b.state)
    (hd : ∀ v (t : State), t.BusOnly (f v t).state) : s.BusOnly (b.andThen f).state := by
  cases b
  · exact hb.trans (hd _ _)
  · exact hb

/-! ### Memory: canonical form, and the words that are kept -/

theorem State.dmaGap_wf {s : State} (h : s.mem.wf = true) : s.dmaGap.mem.wf = true :=
  dmaMemory_wf h

theorem State.readOp_mem (s : State) (a : Addr) : (s.readOp a).state.mem = s.mem := by
  rcases s.transact_cases (.read a) (fun t => (t.read a, t)) with h | h <;> rw [State.readOp, h] <;> rfl

theorem State.fetchOp_mem (s : State) (a : Addr) : (s.fetchOp a).state.mem = s.mem := by
  rcases s.transact_cases (.fetch a) (fun t => (t.read a, t)) with h | h <;> rw [State.fetchOp, h] <;> rfl

/-- A write changes memory as `MemWrite` says, or, not acknowledged, not at all. -/
theorem State.writeOp_mem (s : State) (a : Addr) (v : Word) :
    (s.writeOp a v).state.mem = s.mem.write s.platform a v ∨ (s.writeOp a v).state.mem = s.mem := by
  rcases s.transact_cases (.write a v) (fun t => ((), t.write a v)) with h | h <;> rw [State.writeOp, h]
  · exact .inl rfl
  · exact .inr rfl

theorem State.writeOp_wf {s : State} (a : Addr) (v : Word) (h : s.mem.wf = true) :
    (s.writeOp a v).state.mem.wf = true := by
  rcases s.writeOp_mem a v with e | e <;> rw [e]
  · exact Memory.write_wf h
  · exact h

theorem State.busRead_wf {s : State} (a : Addr) (h : s.mem.wf = true) : (s.busRead a).state.mem.wf = true := by
  rw [State.busRead, State.readOp_mem]
  exact State.dmaGap_wf h

theorem State.busWrite_wf {s : State} (a : Addr) (v : Word) (h : s.mem.wf = true) :
    (s.busWrite a v).state.mem.wf = true :=
  State.writeOp_wf a v (State.dmaGap_wf h)

theorem State.busIncrement_wf {s : State} (a : Addr) (h : s.mem.wf = true) :
    (s.busIncrement a).state.mem.wf = true := by
  refine Bus.andThen_of (P := fun t => t.mem.wf = true) (State.busRead_wf a h) fun v t e => ?_
  have ht : t.mem.wf = true := by simpa [e] using State.busRead_wf a h
  refine Bus.andThen_of (P := fun t => t.mem.wf = true) (State.writeOp_wf a (v + 1) ht) fun _ u hu => ?_
  have h' := State.writeOp_wf a (v + 1) ht
  rwa [hu] at h'

/-! ### The record of the environment -/

theorem EnvAfter.refl (s : State) : EnvAfter 0 0 s s :=
  ⟨rfl, rfl, rfl, rfl, rfl, rfl, [], rfl, by simp⟩

theorem EnvAfter.trans {g g' n n' : Nat} {s t u : State} (h : EnvAfter g n s t) (h' : EnvAfter g' n' t u) :
    EnvAfter (g + g') (n + n') s u := by
  obtain ⟨ev, he, hr⟩ := h.bus
  obtain ⟨ev', he', hr'⟩ := h'.bus
  refine ⟨h'.moves.trans h.moves, h'.answers.trans h.answers, h'.switches.trans h.switches, ?_, ?_, ?_,
    ev' ++ ev, by rw [he', he, List.append_assoc], ?_⟩
  · rw [h'.dma, h.dma, List.drop_drop]
  · rw [h'.acks, h.acks, List.drop_drop]
  · rw [h'.waited, h.waited, h.acks, List.take_add, List.map_append, List.sum_append, Nat.add_assoc]
  · intro e hm
    rcases List.mem_append.mp hm with hm | hm
    · exact hr' e hm
    · exact hr e hm

/-- Only the environments matter. -/
theorem EnvAfter.of_env {g n : Nat} {s t s' t' : State} (h : EnvAfter g n s t) (hs : s'.env = s.env) (ht : t'.env = t.env) :
    EnvAfter g n s' t' := by
  obtain ⟨h1, h2, h3, h4, h5, h6, h7⟩ := h
  constructor <;> rw [hs, ht] <;> assumption

theorem dmaEvents_reads (p : Platform) (m : Memory) (ts : List DmaTransfer) (b : List BusEvent) :
    ∃ ev, dmaEvents p m ts b = ev ++ b ∧ ∀ e ∈ ev, ∃ a v, e = .dmaRead a v := by
  induction ts generalizing m b with
  | nil => exact ⟨[], rfl, by simp⟩
  | cons t rest ih =>
    cases t with
    | write a v => exact ih _ b
    | read a =>
      obtain ⟨ev, h, hr⟩ := ih m (.dmaRead a (m.read p a) :: b)
      refine ⟨ev ++ [.dmaRead a (m.read p a)], by rw [dmaEvents, h]; simp, fun e he => ?_⟩
      rcases List.mem_append.mp he with he | he
      · exact hr e he
      · exact ⟨a, _, List.mem_singleton.mp he⟩

theorem State.dmaGap_envAfter (s : State) : EnvAfter 1 0 s s.dmaGap :=
  ⟨rfl, rfl, rfl, by simp, rfl, rfl, dmaEvents_reads _ _ _ _⟩

theorem State.takeAck_envAfter (s : State) : EnvAfter 0 1 s s.takeAck :=
  ⟨rfl, rfl, rfl, rfl, by simp, by simp [State.takeAck_head], [], rfl, by simp⟩

end Sys2Proof.Machine
end

