-- ==== Sys2Proof/Laws/Operands.lean ====
section
/-! SUPPORT. What finding an operand can do to the state: memory, the record of the environment and the waiting operation
change, nothing else; only an autoindex pointer is stored to. -/

namespace Sys2Proof.Machine

/-! ### Every field after bus operations -/

/-- The frame of acknowledged operations is one of bus operations. -/
theorem State.BusOnly.of_frame {s t : State} (h : t = { s with mem := t.mem, env := t.env }) : s.BusOnly t := by
  unfold State.BusOnly
  rw [h]

theorem State.BusOnly.eq {s t : State} (h : s.BusOnly t) :
    t = { s with mem := t.mem, env := t.env, waiting := t.waiting } := h

theorem State.BusOnly.ac {s t : State} (h : s.BusOnly t) : t.ac = s.ac := by rw [h.eq]
theorem State.BusOnly.l {s t : State} (h : s.BusOnly t) : t.l = s.l := by rw [h.eq]
theorem State.BusOnly.mq {s t : State} (h : s.BusOnly t) : t.mq = s.mq := by rw [h.eq]
theorem State.BusOnly.pc {s t : State} (h : s.BusOnly t) : t.pc = s.pc := by rw [h.eq]
theorem State.BusOnly.sp1 {s t : State} (h : s.BusOnly t) : t.sp1 = s.sp1 := by rw [h.eq]
theorem State.BusOnly.sp2 {s t : State} (h : s.BusOnly t) : t.sp2 = s.sp2 := by rw [h.eq]
theorem State.BusOnly.ol {s t : State} (h : s.BusOnly t) : t.ol = s.ol := by rw [h.eq]
theorem State.BusOnly.temp {s t : State} (h : s.BusOnly t) : t.temp = s.temp := by rw [h.eq]
theorem State.BusOnly.ir {s t : State} (h : s.BusOnly t) : t.ir = s.ir := by rw [h.eq]
theorem State.BusOnly.ifr {s t : State} (h : s.BusOnly t) : t.ifr = s.ifr := by rw [h.eq]
theorem State.BusOnly.ib {s t : State} (h : s.BusOnly t) : t.ib = s.ib := by rw [h.eq]
theorem State.BusOnly.isf {s t : State} (h : s.BusOnly t) : t.isf = s.isf := by rw [h.eq]
theorem State.BusOnly.df {s t : State} (h : s.BusOnly t) : t.df = s.df := by rw [h.eq]
theorem State.BusOnly.dsf {s t : State} (h : s.BusOnly t) : t.dsf = s.dsf := by rw [h.eq]
theorem State.BusOnly.ieff {s t : State} (h : s.BusOnly t) : t.ieff = s.ieff := by rw [h.eq]
theorem State.BusOnly.iiff {s t : State} (h : s.BusOnly t) : t.iiff = s.iiff := by rw [h.eq]
theorem State.BusOnly.ctrlff {s t : State} (h : s.BusOnly t) : t.ctrlff = s.ctrlff := by rw [h.eq]
theorem State.BusOnly.fz {s t : State} (h : s.BusOnly t) : t.fz = s.fz := by rw [h.eq]
theorem State.BusOnly.pdf {s t : State} (h : s.BusOnly t) : t.pdf = s.pdf := by rw [h.eq]
theorem State.BusOnly.running {s t : State} (h : s.BusOnly t) : t.running = s.running := by rw [h.eq]
theorem State.BusOnly.pwron {s t : State} (h : s.BusOnly t) : t.pwron = s.pwron := by rw [h.eq]
theorem State.BusOnly.pnltrp {s t : State} (h : s.BusOnly t) : t.pnltrp = s.pnltrp := by rw [h.eq]
theorem State.BusOnly.hltflg {s t : State} (h : s.BusOnly t) : t.hltflg = s.hltflg := by rw [h.eq]
theorem State.BusOnly.btstrp {s t : State} (h : s.BusOnly t) : t.btstrp = s.btstrp := by rw [h.eq]
theorem State.BusOnly.gt {s t : State} (h : s.BusOnly t) : t.gt = s.gt := by rw [h.eq]
theorem State.BusOnly.pexff {s t : State} (h : s.BusOnly t) : t.pexff = s.pexff := by rw [h.eq]
theorem State.BusOnly.intgntff {s t : State} (h : s.BusOnly t) : t.intgntff = s.intgntff := by rw [h.eq]
theorem State.BusOnly.nogrant {s t : State} (h : s.BusOnly t) : t.nogrant = s.nogrant := by rw [h.eq]
theorem State.BusOnly.pins {s t : State} (h : s.BusOnly t) : t.pins = s.pins := by rw [h.eq]
theorem State.BusOnly.platform {s t : State} (h : s.BusOnly t) : t.platform = s.platform := by rw [h.eq]
theorem State.BusOnly.fresh {s t : State} (h : s.BusOnly t) : t.fresh = s.fresh := by rw [h.eq]
theorem State.BusOnly.clocks {s t : State} (h : s.BusOnly t) : t.clocks = s.clocks := by rw [h.eq]
theorem State.BusOnly.untimed {s t : State} (h : s.BusOnly t) : t.untimed = s.untimed := by rw [h.eq]

/-! ### The effective address -/

/-- The three cases of finding an effective address (R64). -/
theorem State.effectiveAddress_cases (s : State) (i p : Bool) (a : BitVec 7) :
    (i = false ∧ s.effectiveAddress i p a = .done (s.instructionAddress p a) s) ∨
      (i = true ∧ autoindex (s.instructionAddress p a) = true ∧
        s.effectiveAddress i p a = s.busIncrement (s.instrAddr (s.instructionAddress p a))) ∨
      (i = true ∧ autoindex (s.instructionAddress p a) = false ∧
        s.effectiveAddress i p a = s.busRead (s.instrAddr (s.instructionAddress p a))) := by
  cases i
  · exact .inl ⟨rfl, rfl⟩
  · cases h : autoindex (s.instructionAddress p a)
    · exact .inr (.inr ⟨rfl, rfl, by simp [State.effectiveAddress, h]⟩)
    · exact .inr (.inl ⟨rfl, rfl, by simp [State.effectiveAddress, h]⟩)

theorem State.effectiveAddress_busOnly (s : State) (i p : Bool) (a : BitVec 7) :
    s.BusOnly (s.effectiveAddress i p a).state := by
  rcases s.effectiveAddress_cases i p a with ⟨_, h⟩ | ⟨_, _, h⟩ | ⟨_, _, h⟩ <;> rw [h]
  · rfl
  · exact s.busIncrement_busOnly _
  · exact s.busRead_busOnly _

theorem State.effectiveAddress_wf {s : State} (i p : Bool) (a : BitVec 7) (hw : s.mem.wf = true) :
    (s.effectiveAddress i p a).state.mem.wf = true := by
  rcases s.effectiveAddress_cases i p a with ⟨_, h⟩ | ⟨_, _, h⟩ | ⟨_, _, h⟩ <;> rw [h]
  · exact hw
  · exact State.busIncrement_wf _ hw
  · exact State.busRead_wf _ hw

/-- Everything finding an effective address does when its bus operations are acknowledged: registers are kept, the
environment's lists are used up, an autoindex pointer and only that is stored to, and holds the address found. -/
theorem State.effectiveAddress_done {s : State} (i p : Bool) (a : BitVec 7) (h : s.Acknowledges (s.pointerAcks i p a)) :
    ∃ ea t, s.effectiveAddress i p a = .done ea t ∧ t = { s with mem := t.mem, env := t.env } ∧
      EnvAfter (State.pointerGaps i) (s.pointerAcks i p a) s t ∧
      (∀ b, t.dmaMayWrite b → s.dmaMayWrite b) ∧ (s.mem.wf = true → t.mem.wf = true) ∧
      MemoryKeptExcept (s.pointerStored i p a) s t ∧
      ∀ b ∈ s.pointerStored i p a, s.mem.wf = true → s.platform.kindOf b = .ram →
        t.read b = ea ∧ (¬ s.dmaMayWrite b → ea = s.read b + 1) := by
  rcases s.effectiveAddress_cases i p a with ⟨rfl, e⟩ | ⟨rfl, ha, e⟩ | ⟨rfl, ha, e⟩
  · exact ⟨_, s, e, rfl, EnvAfter.refl s, fun _ h => h, fun h => h, fun _ _ _ => rfl, nofun⟩
  · have hk : s.pointerAcks true p a = 2 := by simp [State.pointerAcks, ha]
    have hs : s.pointerStored true p a = [s.instrAddr (s.instructionAddress p a)] := by
      simp [State.pointerStored, ha]
    rw [hk] at h ⊢
    rw [hs, e, State.busIncrement_done _ h]
    refine ⟨_, _, rfl, rfl, ?_, fun b hb => State.dmaGap_dmaMayWrite hb, fun hw => ?_, fun b hb hd => ?_, ?_⟩
    · exact ((s.dmaGap_envAfter.trans s.dmaGap.takeAck_envAfter).trans s.dmaGap.takeAck.takeAck_envAfter).of_env rfl rfl
    · exact Memory.write_wf (State.dmaGap_wf hw)
    · rw [State.read_write_other fun e => hb (List.mem_singleton.mpr e)]
      exact State.dmaGap_read hd
    · intro b hb hw hk
      obtain rfl := List.mem_singleton.mp hb
      refine ⟨State.read_write_same (State.dmaGap_wf hw) hk, fun hd => ?_⟩
      rw [State.dmaGap_read hd]
  · have hk : s.pointerAcks true p a = 1 := by simp [State.pointerAcks, ha]
    have hs : s.pointerStored true p a = [] := by simp [State.pointerStored, ha]
    rw [hk] at h ⊢
    rw [hs, e, State.busRead_done _ h]
    exact ⟨_, _, rfl, rfl, (s.dmaGap_envAfter.trans s.dmaGap.takeAck_envAfter).of_env rfl rfl,
      fun b hb => State.dmaGap_dmaMayWrite hb, State.dmaGap_wf, fun b _ hd => State.dmaGap_read hd, nofun⟩

/-! ### The operand -/

theorem State.operandAddr_state (s : State) (i p : Bool) (a : BitVec 7) :
    (s.operandAddr i p a).state = (s.effectiveAddress i p a).state := by
  unfold State.operandAddr
  cases s.effectiveAddress i p a <;> rfl

theorem State.operandAddr_busOnly (s : State) (i p : Bool) (a : BitVec 7) : s.BusOnly (s.operandAddr i p a).state := by
  rw [State.operandAddr_state]
  exact s.effectiveAddress_busOnly i p a

/-- Where the effective address is found, so is the operand's address. -/
theorem State.operandAddr_done {s t : State} {i p : Bool} {a : BitVec 7} {ea : Word}
    (h : s.effectiveAddress i p a = .done ea t) :
    s.operandAddr i p a = .done (if i then t.dataAddr ea else t.instrAddr ea) t := by
  rw [State.operandAddr, h]
  rfl

theorem State.operand_busOnly (s : State) (i p : Bool) (a : BitVec 7) : s.BusOnly (s.operand i p a).state := by
  refine Bus.andThen_of (s.operandAddr_busOnly i p a) fun b t h => ?_
  have ht := s.operandAddr_busOnly i p a
  rw [h] at ht
  exact ht.trans (t.busRead_busOnly b)

/-- Where the operand's address is found and one more operation is acknowledged, the operand is the word read there
after the gap. -/
theorem State.operand_done {s t : State} {i p : Bool} {a : BitVec 7} {b : Addr}
    (h : s.operandAddr i p a = .done b t) (ht : t.Acknowledges 1) :
    s.operand i p a = .done (t.dmaGap.read b) t.dmaGap.takeAck := by
  rw [State.operand, h, Bus.andThen_done, State.busRead_done b ht]

/-! ### The memory reference meanings, over the operations that find the operand -/

theorem exec_and (i p : Bool) (a : BitVec 7) (s : State) : exec (.and i p a) s =
    .next ((s.operand i p a).finish fun v t => { t with ac := t.ac &&& v }) := rfl

theorem exec_tad (i p : Bool) (a : BitVec 7) (s : State) : exec (.tad i p a) s =
    .next ((s.operand i p a).finish fun v t => t.addAc v) := rfl

theorem exec_isz (i p : Bool) (a : BitVec 7) (s : State) : exec (.isz i p a) s =
    .next (((s.operandAddr i p a).andThen fun b t => t.busIncrement b).finish fun v u => u.skipIf (v == 0)) := rfl

theorem exec_dca (i p : Bool) (a : BitVec 7) (s : State) : exec (.dca i p a) s =
    .next (((s.operandAddr i p a).andThen fun b t => t.busWrite b t.ac).finish fun _ u => u.clearAc) := rfl

theorem exec_jmp (i p : Bool) (a : BitVec 7) (s : State) : exec (.jmp i p a) s =
    .next ((s.effectiveAddress i p a).finish fun ea t => { t.fieldTransfer with pc := ea }) := rfl

/-- JMS with its two orders of store and field transfer (R71). -/
theorem exec_jms (i p : Bool) (a : BitVec 7) (s : State) : exec (.jms i p a) s =
    .next ((s.effectiveAddress i p a).finish fun ea t =>
      if t.platform.jmsStoreAfterTransfer then
        (t.fieldTransfer.busWrite (t.fieldTransfer.instrAddr ea) t.pc).finish fun _ u => { u with pc := ea + 1 }
      else
        (t.busWrite (t.instrAddr ea) t.pc).finish fun _ u => { u.fieldTransfer with pc := ea + 1 }) := rfl

end Sys2Proof.Machine
end

