-- ==== Sys2Proof/Laws/Operate.lean ====
section
/-! SUPPORT. What the generic operate words can change, said once for each group. -/

namespace Sys2Proof.Machine

/-- `t` differs from `s` in AC, L and the count of free values only: what a group 1 word can do. -/
def State.AcLinkOnly (s t : State) : Prop :=
  t = { s with ac := t.ac, l := t.l, fresh := t.fresh }

theorem State.AcLinkOnly.trans {s t u : State} (h : s.AcLinkOnly t) (h' : t.AcLinkOnly u) : s.AcLinkOnly u := by
  unfold State.AcLinkOnly at *
  rw [h'] at *
  rw [h]

theorem State.doIf_acLinkOnly {s : State} {f : State → State} (c : Bool) (h : ∀ s, State.AcLinkOnly s (f s)) :
    s.AcLinkOnly (s.doIf c f) := by
  cases c
  · rfl
  · exact h s

/-- Rotating changes AC and L only, the free values of code 7 included (R74). -/
theorem State.rotate_acLinkOnly (s : State) (c : Field) : s.AcLinkOnly (s.rotate c) := by
  unfold State.rotate
  split <;> rfl

/-- The state a group 1 word leaves (R73). -/
def State.group1 (s : State) (cla cll cma cml : Bool) (rot : Field) (iac : Bool) : State :=
  (((((s.doIf cla State.clearAc).doIf cll State.clearLink).doIf cma State.complementAc).doIf cml
    State.complementLink).doIf iac State.incrementAc).rotate rot

theorem exec_opr1 (cla cll cma cml : Bool) (rot : Field) (iac : Bool) (s : State) :
    exec (.opr1 cla cll cma cml rot iac) s = .next (s.group1 cla cll cma cml rot iac) := rfl

/-- A group 1 word changes AC and L only (R73, R74). -/
theorem State.group1_acLinkOnly (s : State) (cla cll cma cml : Bool) (rot : Field) (iac : Bool) :
    s.AcLinkOnly (s.group1 cla cll cma cml rot iac) :=
  (State.doIf_acLinkOnly (f := State.clearAc) cla fun _ => rfl).trans <|
    (State.doIf_acLinkOnly (f := State.clearLink) cll fun _ => rfl).trans <|
    (State.doIf_acLinkOnly (f := State.complementAc) cma fun _ => rfl).trans <|
    (State.doIf_acLinkOnly (f := State.complementLink) cml fun _ => rfl).trans <|
    (State.doIf_acLinkOnly (f := State.incrementAc) iac fun _ => rfl).trans (State.rotate_acLinkOnly _ rot)

/-- The state a group 2 word leaves (R98). -/
def State.group2 (s : State) (cla sma sza snl sense osr hlt : Bool) : State :=
  let t := (s.skipIf (s.skipTest sma sza snl sense)).doIf cla State.clearAc
  (if osr then t.orSwitch else .done () t).finish fun _ u => u.doIf hlt State.requestHalt

theorem exec_opr2 (cla sma sza snl sense osr hlt : Bool) (s : State) :
    exec (.opr2 cla sma sza snl sense osr hlt) s = .next (s.group2 cla sma sza snl sense osr hlt) := rfl

/-- The two ways the switch-register read can go. -/
theorem State.orSwitch_cases (s : State) :
    s.orSwitch = .done () { s.dmaGap with
      ac := s.ac ||| s.switchWord
      env := { s.dmaGap.takeAck.env with
        switches := s.env.switches.tail, bus := .switchRead s.df :: s.dmaGap.env.bus }
      fresh := s.fresh + 1 } ∨
    s.orSwitch = .hung { s.dmaGap.takeAck with waiting := some (.switchRead s.df) } := by
  unfold State.orSwitch State.switchBus
  rcases s.dmaGap.transact_cases (.switchRead s.df) (fun t => (t.switchWord,
    { t with
      env := { t.env with switches := t.env.switches.tail, bus := .switchRead t.df :: t.env.bus }
      fresh := t.fresh + 1 })) with h | h <;> rw [h]
  · exact .inl rfl
  · exact .inr rfl

/-- OSR's read changes AC, memory by DMA, the record of the environment, the waiting operation and the count of free
values. -/
theorem State.orSwitch_frame (s : State) : s.orSwitch.state = { s with
    ac := s.orSwitch.state.ac
    mem := s.orSwitch.state.mem
    env := s.orSwitch.state.env
    waiting := s.orSwitch.state.waiting
    fresh := s.orSwitch.state.fresh } := by
  rcases s.orSwitch_cases with h | h <;> rw [h] <;> rfl

/-- A group 2 word changes PC, AC, HLTFLG and, where it reads the switch register, memory by DMA, the record of the
environment, the waiting operation and the count of free values (R98). -/
theorem State.group2_frame (s : State) (cla sma sza snl sense osr hlt : Bool) :
    s.group2 cla sma sza snl sense osr hlt = { s with
      pc := (s.group2 cla sma sza snl sense osr hlt).pc
      ac := (s.group2 cla sma sza snl sense osr hlt).ac
      hltflg := (s.group2 cla sma sza snl sense osr hlt).hltflg
      waiting := (s.group2 cla sma sza snl sense osr hlt).waiting
      mem := (s.group2 cla sma sza snl sense osr hlt).mem
      env := (s.group2 cla sma sza snl sense osr hlt).env
      fresh := (s.group2 cla sma sza snl sense osr hlt).fresh } := by
  cases osr
  · cases cla <;> cases hlt <;> rfl
  · rcases State.orSwitch_cases ((s.skipIf (s.skipTest sma sza snl sense)).doIf cla State.clearAc) with h | h <;>
      simp only [State.group2, if_true, h] <;> cases cla <;> cases hlt <;> rfl

/-- Without OSR a group 2 word makes no bus operation. -/
theorem State.group2_no_switch (s : State) (cla sma sza snl sense hlt : Bool) :
    s.group2 cla sma sza snl sense false hlt = { s with
      pc := (s.group2 cla sma sza snl sense false hlt).pc
      ac := (s.group2 cla sma sza snl sense false hlt).ac
      hltflg := (s.group2 cla sma sza snl sense false hlt).hltflg } := by
  cases cla <;> cases hlt <;> rfl

/-! ### Every field after a generic group 1 or group 2 word -/

@[simp] theorem State.group1_mq (s : State) (cla cll cma cml : Bool) (rot : Field) (iac : Bool) :
    (s.group1 cla cll cma cml rot iac).mq = s.mq := by
  rw [s.group1_acLinkOnly cla cll cma cml rot iac]
@[simp] theorem State.group1_pc (s : State) (cla cll cma cml : Bool) (rot : Field) (iac : Bool) :
    (s.group1 cla cll cma cml rot iac).pc = s.pc := by
  rw [s.group1_acLinkOnly cla cll cma cml rot iac]
@[simp] theorem State.group1_sp1 (s : State) (cla cll cma cml : Bool) (rot : Field) (iac : Bool) :
    (s.group1 cla cll cma cml rot iac).sp1 = s.sp1 := by
  rw [s.group1_acLinkOnly cla cll cma cml rot iac]
@[simp] theorem State.group1_sp2 (s : State) (cla cll cma cml : Bool) (rot : Field) (iac : Bool) :
    (s.group1 cla cll cma cml rot iac).sp2 = s.sp2 := by
  rw [s.group1_acLinkOnly cla cll cma cml rot iac]
@[simp] theorem State.group1_ol (s : State) (cla cll cma cml : Bool) (rot : Field) (iac : Bool) :
    (s.group1 cla cll cma cml rot iac).ol = s.ol := by
  rw [s.group1_acLinkOnly cla cll cma cml rot iac]
@[simp] theorem State.group1_temp (s : State) (cla cll cma cml : Bool) (rot : Field) (iac : Bool) :
    (s.group1 cla cll cma cml rot iac).temp = s.temp := by
  rw [s.group1_acLinkOnly cla cll cma cml rot iac]
@[simp] theorem State.group1_ir (s : State) (cla cll cma cml : Bool) (rot : Field) (iac : Bool) :
    (s.group1 cla cll cma cml rot iac).ir = s.ir := by
  rw [s.group1_acLinkOnly cla cll cma cml rot iac]
@[simp] theorem State.group1_ifr (s : State) (cla cll cma cml : Bool) (rot : Field) (iac : Bool) :
    (s.group1 cla cll cma cml rot iac).ifr = s.ifr := by
  rw [s.group1_acLinkOnly cla cll cma cml rot iac]
@[simp] theorem State.group1_ib (s : State) (cla cll cma cml : Bool) (rot : Field) (iac : Bool) :
    (s.group1 cla cll cma cml rot iac).ib = s.ib := by
  rw [s.group1_acLinkOnly cla cll cma cml rot iac]
@[simp] theorem State.group1_isf (s : State) (cla cll cma cml : Bool) (rot : Field) (iac : Bool) :
    (s.group1 cla cll cma cml rot iac).isf = s.isf := by
  rw [s.group1_acLinkOnly cla cll cma cml rot iac]
@[simp] theorem State.group1_df (s : State) (cla cll cma cml : Bool) (rot : Field) (iac : Bool) :
    (s.group1 cla cll cma cml rot iac).df = s.df := by
  rw [s.group1_acLinkOnly cla cll cma cml rot iac]
@[simp] theorem State.group1_dsf (s : State) (cla cll cma cml : Bool) (rot : Field) (iac : Bool) :
    (s.group1 cla cll cma cml rot iac).dsf = s.dsf := by
  rw [s.group1_acLinkOnly cla cll cma cml rot iac]
@[simp] theorem State.group1_ieff (s : State) (cla cll cma cml : Bool) (rot : Field) (iac : Bool) :
    (s.group1 cla cll cma cml rot iac).ieff = s.ieff := by
  rw [s.group1_acLinkOnly cla cll cma cml rot iac]
@[simp] theorem State.group1_iiff (s : State) (cla cll cma cml : Bool) (rot : Field) (iac : Bool) :
    (s.group1 cla cll cma cml rot iac).iiff = s.iiff := by
  rw [s.group1_acLinkOnly cla cll cma cml rot iac]
@[simp] theorem State.group1_ctrlff (s : State) (cla cll cma cml : Bool) (rot : Field) (iac : Bool) :
    (s.group1 cla cll cma cml rot iac).ctrlff = s.ctrlff := by
  rw [s.group1_acLinkOnly cla cll cma cml rot iac]
@[simp] theorem State.group1_fz (s : State) (cla cll cma cml : Bool) (rot : Field) (iac : Bool) :
    (s.group1 cla cll cma cml rot iac).fz = s.fz := by
  rw [s.group1_acLinkOnly cla cll cma cml rot iac]
@[simp] theorem State.group1_pdf (s : State) (cla cll cma cml : Bool) (rot : Field) (iac : Bool) :
    (s.group1 cla cll cma cml rot iac).pdf = s.pdf := by
  rw [s.group1_acLinkOnly cla cll cma cml rot iac]
@[simp] theorem State.group1_running (s : State) (cla cll cma cml : Bool) (rot : Field) (iac : Bool) :
    (s.group1 cla cll cma cml rot iac).running = s.running := by
  rw [s.group1_acLinkOnly cla cll cma cml rot iac]
@[simp] theorem State.group1_pwron (s : State) (cla cll cma cml : Bool) (rot : Field) (iac : Bool) :
    (s.group1 cla cll cma cml rot iac).pwron = s.pwron := by
  rw [s.group1_acLinkOnly cla cll cma cml rot iac]
@[simp] theorem State.group1_pnltrp (s : State) (cla cll cma cml : Bool) (rot : Field) (iac : Bool) :
    (s.group1 cla cll cma cml rot iac).pnltrp = s.pnltrp := by
  rw [s.group1_acLinkOnly cla cll cma cml rot iac]
@[simp] theorem State.group1_hltflg (s : State) (cla cll cma cml : Bool) (rot : Field) (iac : Bool) :
    (s.group1 cla cll cma cml rot iac).hltflg = s.hltflg := by
  rw [s.group1_acLinkOnly cla cll cma cml rot iac]
@[simp] theorem State.group1_btstrp (s : State) (cla cll cma cml : Bool) (rot : Field) (iac : Bool) :
    (s.group1 cla cll cma cml rot iac).btstrp = s.btstrp := by
  rw [s.group1_acLinkOnly cla cll cma cml rot iac]
@[simp] theorem State.group1_gt (s : State) (cla cll cma cml : Bool) (rot : Field) (iac : Bool) :
    (s.group1 cla cll cma cml rot iac).gt = s.gt := by
  rw [s.group1_acLinkOnly cla cll cma cml rot iac]
@[simp] theorem State.group1_pexff (s : State) (cla cll cma cml : Bool) (rot : Field) (iac : Bool) :
    (s.group1 cla cll cma cml rot iac).pexff = s.pexff := by
  rw [s.group1_acLinkOnly cla cll cma cml rot iac]
@[simp] theorem State.group1_intgntff (s : State) (cla cll cma cml : Bool) (rot : Field) (iac : Bool) :
    (s.group1 cla cll cma cml rot iac).intgntff = s.intgntff := by
  rw [s.group1_acLinkOnly cla cll cma cml rot iac]
@[simp] theorem State.group1_nogrant (s : State) (cla cll cma cml : Bool) (rot : Field) (iac : Bool) :
    (s.group1 cla cll cma cml rot iac).nogrant = s.nogrant := by
  rw [s.group1_acLinkOnly cla cll cma cml rot iac]
@[simp] theorem State.group1_waiting (s : State) (cla cll cma cml : Bool) (rot : Field) (iac : Bool) :
    (s.group1 cla cll cma cml rot iac).waiting = s.waiting := by
  rw [s.group1_acLinkOnly cla cll cma cml rot iac]
@[simp] theorem State.group1_mem (s : State) (cla cll cma cml : Bool) (rot : Field) (iac : Bool) :
    (s.group1 cla cll cma cml rot iac).mem = s.mem := by
  rw [s.group1_acLinkOnly cla cll cma cml rot iac]
@[simp] theorem State.group1_pins (s : State) (cla cll cma cml : Bool) (rot : Field) (iac : Bool) :
    (s.group1 cla cll cma cml rot iac).pins = s.pins := by
  rw [s.group1_acLinkOnly cla cll cma cml rot iac]
@[simp] theorem State.group1_env (s : State) (cla cll cma cml : Bool) (rot : Field) (iac : Bool) :
    (s.group1 cla cll cma cml rot iac).env = s.env := by
  rw [s.group1_acLinkOnly cla cll cma cml rot iac]
@[simp] theorem State.group1_platform (s : State) (cla cll cma cml : Bool) (rot : Field) (iac : Bool) :
    (s.group1 cla cll cma cml rot iac).platform = s.platform := by
  rw [s.group1_acLinkOnly cla cll cma cml rot iac]
@[simp] theorem State.group1_clocks (s : State) (cla cll cma cml : Bool) (rot : Field) (iac : Bool) :
    (s.group1 cla cll cma cml rot iac).clocks = s.clocks := by
  rw [s.group1_acLinkOnly cla cll cma cml rot iac]
@[simp] theorem State.group1_untimed (s : State) (cla cll cma cml : Bool) (rot : Field) (iac : Bool) :
    (s.group1 cla cll cma cml rot iac).untimed = s.untimed := by
  rw [s.group1_acLinkOnly cla cll cma cml rot iac]
@[simp] theorem State.group2_l (s : State) (cla sma sza snl sense osr hlt : Bool) :
    (s.group2 cla sma sza snl sense osr hlt).l = s.l := by
  rw [s.group2_frame cla sma sza snl sense osr hlt]
@[simp] theorem State.group2_mq (s : State) (cla sma sza snl sense osr hlt : Bool) :
    (s.group2 cla sma sza snl sense osr hlt).mq = s.mq := by
  rw [s.group2_frame cla sma sza snl sense osr hlt]
@[simp] theorem State.group2_sp1 (s : State) (cla sma sza snl sense osr hlt : Bool) :
    (s.group2 cla sma sza snl sense osr hlt).sp1 = s.sp1 := by
  rw [s.group2_frame cla sma sza snl sense osr hlt]
@[simp] theorem State.group2_sp2 (s : State) (cla sma sza snl sense osr hlt : Bool) :
    (s.group2 cla sma sza snl sense osr hlt).sp2 = s.sp2 := by
  rw [s.group2_frame cla sma sza snl sense osr hlt]
@[simp] theorem State.group2_ol (s : State) (cla sma sza snl sense osr hlt : Bool) :
    (s.group2 cla sma sza snl sense osr hlt).ol = s.ol := by
  rw [s.group2_frame cla sma sza snl sense osr hlt]
@[simp] theorem State.group2_temp (s : State) (cla sma sza snl sense osr hlt : Bool) :
    (s.group2 cla sma sza snl sense osr hlt).temp = s.temp := by
  rw [s.group2_frame cla sma sza snl sense osr hlt]
@[simp] theorem State.group2_ir (s : State) (cla sma sza snl sense osr hlt : Bool) :
    (s.group2 cla sma sza snl sense osr hlt).ir = s.ir := by
  rw [s.group2_frame cla sma sza snl sense osr hlt]
@[simp] theorem State.group2_ifr (s : State) (cla sma sza snl sense osr hlt : Bool) :
    (s.group2 cla sma sza snl sense osr hlt).ifr = s.ifr := by
  rw [s.group2_frame cla sma sza snl sense osr hlt]
@[simp] theorem State.group2_ib (s : State) (cla sma sza snl sense osr hlt : Bool) :
    (s.group2 cla sma sza snl sense osr hlt).ib = s.ib := by
  rw [s.group2_frame cla sma sza snl sense osr hlt]
@[simp] theorem State.group2_isf (s : State) (cla sma sza snl sense osr hlt : Bool) :
    (s.group2 cla sma sza snl sense osr hlt).isf = s.isf := by
  rw [s.group2_frame cla sma sza snl sense osr hlt]
@[simp] theorem State.group2_df (s : State) (cla sma sza snl sense osr hlt : Bool) :
    (s.group2 cla sma sza snl sense osr hlt).df = s.df := by
  rw [s.group2_frame cla sma sza snl sense osr hlt]
@[simp] theorem State.group2_dsf (s : State) (cla sma sza snl sense osr hlt : Bool) :
    (s.group2 cla sma sza snl sense osr hlt).dsf = s.dsf := by
  rw [s.group2_frame cla sma sza snl sense osr hlt]
@[simp] theorem State.group2_ieff (s : State) (cla sma sza snl sense osr hlt : Bool) :
    (s.group2 cla sma sza snl sense osr hlt).ieff = s.ieff := by
  rw [s.group2_frame cla sma sza snl sense osr hlt]
@[simp] theorem State.group2_iiff (s : State) (cla sma sza snl sense osr hlt : Bool) :
    (s.group2 cla sma sza snl sense osr hlt).iiff = s.iiff := by
  rw [s.group2_frame cla sma sza snl sense osr hlt]
@[simp] theorem State.group2_ctrlff (s : State) (cla sma sza snl sense osr hlt : Bool) :
    (s.group2 cla sma sza snl sense osr hlt).ctrlff = s.ctrlff := by
  rw [s.group2_frame cla sma sza snl sense osr hlt]
@[simp] theorem State.group2_fz (s : State) (cla sma sza snl sense osr hlt : Bool) :
    (s.group2 cla sma sza snl sense osr hlt).fz = s.fz := by
  rw [s.group2_frame cla sma sza snl sense osr hlt]
@[simp] theorem State.group2_pdf (s : State) (cla sma sza snl sense osr hlt : Bool) :
    (s.group2 cla sma sza snl sense osr hlt).pdf = s.pdf := by
  rw [s.group2_frame cla sma sza snl sense osr hlt]
@[simp] theorem State.group2_running (s : State) (cla sma sza snl sense osr hlt : Bool) :
    (s.group2 cla sma sza snl sense osr hlt).running = s.running := by
  rw [s.group2_frame cla sma sza snl sense osr hlt]
@[simp] theorem State.group2_pwron (s : State) (cla sma sza snl sense osr hlt : Bool) :
    (s.group2 cla sma sza snl sense osr hlt).pwron = s.pwron := by
  rw [s.group2_frame cla sma sza snl sense osr hlt]
@[simp] theorem State.group2_pnltrp (s : State) (cla sma sza snl sense osr hlt : Bool) :
    (s.group2 cla sma sza snl sense osr hlt).pnltrp = s.pnltrp := by
  rw [s.group2_frame cla sma sza snl sense osr hlt]
@[simp] theorem State.group2_btstrp (s : State) (cla sma sza snl sense osr hlt : Bool) :
    (s.group2 cla sma sza snl sense osr hlt).btstrp = s.btstrp := by
  rw [s.group2_frame cla sma sza snl sense osr hlt]
@[simp] theorem State.group2_gt (s : State) (cla sma sza snl sense osr hlt : Bool) :
    (s.group2 cla sma sza snl sense osr hlt).gt = s.gt := by
  rw [s.group2_frame cla sma sza snl sense osr hlt]
@[simp] theorem State.group2_pexff (s : State) (cla sma sza snl sense osr hlt : Bool) :
    (s.group2 cla sma sza snl sense osr hlt).pexff = s.pexff := by
  rw [s.group2_frame cla sma sza snl sense osr hlt]
@[simp] theorem State.group2_intgntff (s : State) (cla sma sza snl sense osr hlt : Bool) :
    (s.group2 cla sma sza snl sense osr hlt).intgntff = s.intgntff := by
  rw [s.group2_frame cla sma sza snl sense osr hlt]
@[simp] theorem State.group2_nogrant (s : State) (cla sma sza snl sense osr hlt : Bool) :
    (s.group2 cla sma sza snl sense osr hlt).nogrant = s.nogrant := by
  rw [s.group2_frame cla sma sza snl sense osr hlt]
@[simp] theorem State.group2_pins (s : State) (cla sma sza snl sense osr hlt : Bool) :
    (s.group2 cla sma sza snl sense osr hlt).pins = s.pins := by
  rw [s.group2_frame cla sma sza snl sense osr hlt]
@[simp] theorem State.group2_platform (s : State) (cla sma sza snl sense osr hlt : Bool) :
    (s.group2 cla sma sza snl sense osr hlt).platform = s.platform := by
  rw [s.group2_frame cla sma sza snl sense osr hlt]
@[simp] theorem State.group2_clocks (s : State) (cla sma sza snl sense osr hlt : Bool) :
    (s.group2 cla sma sza snl sense osr hlt).clocks = s.clocks := by
  rw [s.group2_frame cla sma sza snl sense osr hlt]
@[simp] theorem State.group2_untimed (s : State) (cla sma sza snl sense osr hlt : Bool) :
    (s.group2 cla sma sza snl sense osr hlt).untimed = s.untimed := by
  rw [s.group2_frame cla sma sza snl sense osr hlt]

end Sys2Proof.Machine
end

