-- ==== Sys2Proof/Laws/PerInstr.lean ====
section
/-! SUPPORT. Statements made once per constructor of `Instr`. TableRow: the encoded word has the fixed bits of its row of
spec/opcode_table.json, so that a word of the encoder is a word of its own row. -/

namespace Sys2Proof.Laws.TableRow

/-- A row's fixed bits: their values and their mask, as the opcode table gives them. -/
def fixedBits : Instr → Word × Word
  | .and _ _ _ => (0o0000, 0o7000)
  | .tad _ _ _ => (0o1000, 0o7000)
  | .isz _ _ _ => (0o2000, 0o7000)
  | .dca _ _ _ => (0o3000, 0o7000)
  | .jms _ _ _ => (0o4000, 0o7000)
  | .jmp _ _ _ => (0o5000, 0o7000)
  | .opr1 _ _ _ _ _ _ => (0o7000, 0o7400)
  | .nop1 => (0o7000, 0o7777)
  | .iac => (0o7001, 0o7777)
  | .bsw => (0o7002, 0o7777)
  | .ral => (0o7004, 0o7777)
  | .rtl => (0o7006, 0o7777)
  | .rar => (0o7010, 0o7777)
  | .rtr => (0o7012, 0o7777)
  | .r3l => (0o7014, 0o7777)
  | .cml => (0o7020, 0o7777)
  | .cma => (0o7040, 0o7777)
  | .cia => (0o7041, 0o7777)
  | .cll => (0o7100, 0o7777)
  | .cllRal => (0o7104, 0o7777)
  | .cllRtl => (0o7106, 0o7777)
  | .cllRar => (0o7110, 0o7777)
  | .cllRtr => (0o7112, 0o7777)
  | .stl => (0o7120, 0o7777)
  | .cla1 => (0o7200, 0o7777)
  | .claIac => (0o7201, 0o7777)
  | .glk => (0o7204, 0o7777)
  | .sta => (0o7240, 0o7777)
  | .claCll => (0o7300, 0o7777)
  | .opr2 _ _ _ _ _ _ _ => (0o7400, 0o7401)
  | .nop2 => (0o7400, 0o7777)
  | .hlt => (0o7402, 0o7777)
  | .osr => (0o7404, 0o7777)
  | .skp => (0o7410, 0o7777)
  | .snl => (0o7420, 0o7777)
  | .szl => (0o7430, 0o7777)
  | .sza => (0o7440, 0o7777)
  | .sna => (0o7450, 0o7777)
  | .szaSnl => (0o7460, 0o7777)
  | .snaSzl => (0o7470, 0o7777)
  | .sma => (0o7500, 0o7777)
  | .spa => (0o7510, 0o7777)
  | .smaSnl => (0o7520, 0o7777)
  | .spaSzl => (0o7530, 0o7777)
  | .smaSza => (0o7540, 0o7777)
  | .spaSna => (0o7550, 0o7777)
  | .smaSzaSnl => (0o7560, 0o7777)
  | .spaSnaSzl => (0o7570, 0o7777)
  | .cla2 => (0o7600, 0o7777)
  | .las => (0o7604, 0o7777)
  | .szaCla => (0o7640, 0o7777)
  | .snaCla => (0o7650, 0o7777)
  | .smaCla => (0o7700, 0o7777)
  | .spaCla => (0o7710, 0o7777)
  | .opr3 _ _ _ _ _ => (0o7401, 0o7401)
  | .nop3 => (0o7401, 0o7777)
  | .mql => (0o7421, 0o7777)
  | .mqa => (0o7501, 0o7777)
  | .swp => (0o7521, 0o7777)
  | .cla3 => (0o7601, 0o7777)
  | .cam => (0o7621, 0o7777)
  | .acl => (0o7701, 0o7777)
  | .claSwp => (0o7721, 0o7777)
  | .ppc1 => (0o6205, 0o7777)
  | .ppc2 => (0o6245, 0o7777)
  | .pac1 => (0o6215, 0o7777)
  | .pac2 => (0o6255, 0o7777)
  | .rtn1 => (0o6225, 0o7777)
  | .rtn2 => (0o6265, 0o7777)
  | .pop1 => (0o6235, 0o7777)
  | .pop2 => (0o6275, 0o7777)
  | .rsp1 => (0o6207, 0o7777)
  | .rsp2 => (0o6227, 0o7777)
  | .lsp1 => (0o6217, 0o7777)
  | .lsp2 => (0o6237, 0o7777)
  | .ion => (0o6001, 0o7777)
  | .iof => (0o6002, 0o7777)
  | .rtf => (0o6005, 0o7777)
  | .sgt => (0o6006, 0o7777)
  | .caf => (0o6007, 0o7777)
  | .wsr => (0o6246, 0o7777)
  | .gcf => (0o6256, 0o7777)
  | .skon => (0o6000, 0o7777)
  | .srq => (0o6003, 0o7777)
  | .gtf => (0o6004, 0o7777)
  | .pr0 => (0o6206, 0o7777)
  | .pr1 => (0o6216, 0o7777)
  | .pr2 => (0o6226, 0o7777)
  | .pr3 => (0o6236, 0o7777)
  | .prs => (0o6000, 0o7777)
  | .pgo => (0o6003, 0o7777)
  | .pex => (0o6004, 0o7777)
  | .cpd => (0o6266, 0o7777)
  | .spd => (0o6276, 0o7777)
  | .cdf _ => (0o6201, 0o7707)
  | .cif _ => (0o6202, 0o7707)
  | .cdfCif _ => (0o6203, 0o7707)
  | .rdf => (0o6214, 0o7777)
  | .rif => (0o6224, 0o7777)
  | .rib => (0o6234, 0o7777)
  | .rmf => (0o6244, 0o7777)
  | .iot _ _ => (0o6000, 0o7000)
  | .reserved6200 => (0o6200, 0o7777)
  | .reserved6210 => (0o6210, 0o7777)
  | .reserved6220 => (0o6220, 0o7777)
  | .reserved6230 => (0o6230, 0o7777)
  | .reserved6240 => (0o6240, 0o7777)
  | .reserved6250 => (0o6250, 0o7777)
  | .reserved6260 => (0o6260, 0o7777)
  | .reserved6270 => (0o6270, 0o7777)
  | .reserved6204 => (0o6204, 0o7777)
  | .reserved6254 => (0o6254, 0o7777)
  | .reserved6264 => (0o6264, 0o7777)
  | .reserved6274 => (0o6274, 0o7777)
  | .reserved6247 => (0o6247, 0o7777)
  | .reserved6257 => (0o6257, 0o7777)
  | .reserved6267 => (0o6267, 0o7777)
  | .reserved6277 => (0o6277, 0o7777)

/-- The word of the instruction matches its row (R58). -/
def Statement (i : Instr) : Prop :=
  encode i &&& (fixedBits i).2 = (fixedBits i).1

theorem and : ∀ (indirect currentPage : Bool) (page : BitVec 7), Statement (.and indirect currentPage page) := by
  unfold Statement; decide
theorem tad : ∀ (indirect currentPage : Bool) (page : BitVec 7), Statement (.tad indirect currentPage page) := by
  unfold Statement; decide
theorem isz : ∀ (indirect currentPage : Bool) (page : BitVec 7), Statement (.isz indirect currentPage page) := by
  unfold Statement; decide
theorem dca : ∀ (indirect currentPage : Bool) (page : BitVec 7), Statement (.dca indirect currentPage page) := by
  unfold Statement; decide
theorem jms : ∀ (indirect currentPage : Bool) (page : BitVec 7), Statement (.jms indirect currentPage page) := by
  unfold Statement; decide
theorem jmp : ∀ (indirect currentPage : Bool) (page : BitVec 7), Statement (.jmp indirect currentPage page) := by
  unfold Statement; decide
theorem opr1 : ∀ (cla cll cma cml : Bool) (rot : Field) (iac : Bool), Statement (.opr1 cla cll cma cml rot iac) := by
  unfold Statement; decide
theorem nop1 : Statement .nop1 := rfl
theorem iac : Statement .iac := rfl
theorem bsw : Statement .bsw := rfl
theorem ral : Statement .ral := rfl
theorem rtl : Statement .rtl := rfl
theorem rar : Statement .rar := rfl
theorem rtr : Statement .rtr := rfl
theorem r3l : Statement .r3l := rfl
theorem cml : Statement .cml := rfl
theorem cma : Statement .cma := rfl
theorem cia : Statement .cia := rfl
theorem cll : Statement .cll := rfl
theorem cllRal : Statement .cllRal := rfl
theorem cllRtl : Statement .cllRtl := rfl
theorem cllRar : Statement .cllRar := rfl
theorem cllRtr : Statement .cllRtr := rfl
theorem stl : Statement .stl := rfl
theorem cla1 : Statement .cla1 := rfl
theorem claIac : Statement .claIac := rfl
theorem glk : Statement .glk := rfl
theorem sta : Statement .sta := rfl
theorem claCll : Statement .claCll := rfl
theorem opr2 : ∀ (cla sma sza snl sense osr hlt : Bool), Statement (.opr2 cla sma sza snl sense osr hlt) := by
  unfold Statement; decide
theorem nop2 : Statement .nop2 := rfl
theorem hlt : Statement .hlt := rfl
theorem osr : Statement .osr := rfl
theorem skp : Statement .skp := rfl
theorem snl : Statement .snl := rfl
theorem szl : Statement .szl := rfl
theorem sza : Statement .sza := rfl
theorem sna : Statement .sna := rfl
theorem szaSnl : Statement .szaSnl := rfl
theorem snaSzl : Statement .snaSzl := rfl
theorem sma : Statement .sma := rfl
theorem spa : Statement .spa := rfl
theorem smaSnl : Statement .smaSnl := rfl
theorem spaSzl : Statement .spaSzl := rfl
theorem smaSza : Statement .smaSza := rfl
theorem spaSna : Statement .spaSna := rfl
theorem smaSzaSnl : Statement .smaSzaSnl := rfl
theorem spaSnaSzl : Statement .spaSnaSzl := rfl
theorem cla2 : Statement .cla2 := rfl
theorem las : Statement .las := rfl
theorem szaCla : Statement .szaCla := rfl
theorem snaCla : Statement .snaCla := rfl
theorem smaCla : Statement .smaCla := rfl
theorem spaCla : Statement .spaCla := rfl
theorem opr3 : ∀ (cla mqa u6 mql : Bool) (u8to10 : Field), Statement (.opr3 cla mqa u6 mql u8to10) := by
  unfold Statement; decide
theorem nop3 : Statement .nop3 := rfl
theorem mql : Statement .mql := rfl
theorem mqa : Statement .mqa := rfl
theorem swp : Statement .swp := rfl
theorem cla3 : Statement .cla3 := rfl
theorem cam : Statement .cam := rfl
theorem acl : Statement .acl := rfl
theorem claSwp : Statement .claSwp := rfl
theorem ppc1 : Statement .ppc1 := rfl
theorem ppc2 : Statement .ppc2 := rfl
theorem pac1 : Statement .pac1 := rfl
theorem pac2 : Statement .pac2 := rfl
theorem rtn1 : Statement .rtn1 := rfl
theorem rtn2 : Statement .rtn2 := rfl
theorem pop1 : Statement .pop1 := rfl
theorem pop2 : Statement .pop2 := rfl
theorem rsp1 : Statement .rsp1 := rfl
theorem rsp2 : Statement .rsp2 := rfl
theorem lsp1 : Statement .lsp1 := rfl
theorem lsp2 : Statement .lsp2 := rfl
theorem ion : Statement .ion := rfl
theorem iof : Statement .iof := rfl
theorem rtf : Statement .rtf := rfl
theorem sgt : Statement .sgt := rfl
theorem caf : Statement .caf := rfl
theorem wsr : Statement .wsr := rfl
theorem gcf : Statement .gcf := rfl
theorem skon : Statement .skon := rfl
theorem srq : Statement .srq := rfl
theorem gtf : Statement .gtf := rfl
theorem pr0 : Statement .pr0 := rfl
theorem pr1 : Statement .pr1 := rfl
theorem pr2 : Statement .pr2 := rfl
theorem pr3 : Statement .pr3 := rfl
theorem prs : Statement .prs := rfl
theorem pgo : Statement .pgo := rfl
theorem pex : Statement .pex := rfl
theorem cpd : Statement .cpd := rfl
theorem spd : Statement .spd := rfl
theorem cdf : ∀ (x : Field), Statement (.cdf x) := by
  unfold Statement; decide
theorem cif : ∀ (x : Field), Statement (.cif x) := by
  unfold Statement; decide
theorem cdfCif : ∀ (x : Field), Statement (.cdfCif x) := by
  unfold Statement; decide
theorem rdf : Statement .rdf := rfl
theorem rif : Statement .rif := rfl
theorem rib : Statement .rib := rfl
theorem rmf : Statement .rmf := rfl
theorem iot : ∀ (device : BitVec 6) (operation : Field), Statement (.iot device operation) := by
  unfold Statement; decide
theorem reserved6200 : Statement .reserved6200 := rfl
theorem reserved6210 : Statement .reserved6210 := rfl
theorem reserved6220 : Statement .reserved6220 := rfl
theorem reserved6230 : Statement .reserved6230 := rfl
theorem reserved6240 : Statement .reserved6240 := rfl
theorem reserved6250 : Statement .reserved6250 := rfl
theorem reserved6260 : Statement .reserved6260 := rfl
theorem reserved6270 : Statement .reserved6270 := rfl
theorem reserved6204 : Statement .reserved6204 := rfl
theorem reserved6254 : Statement .reserved6254 := rfl
theorem reserved6264 : Statement .reserved6264 := rfl
theorem reserved6274 : Statement .reserved6274 := rfl
theorem reserved6247 : Statement .reserved6247 := rfl
theorem reserved6257 : Statement .reserved6257 := rfl
theorem reserved6267 : Statement .reserved6267 := rfl
theorem reserved6277 : Statement .reserved6277 := rfl

end Sys2Proof.Laws.TableRow
end

