-- ==== Sys2Proof/Laws/Step.lean ====
section
/-! SUPPORT. What one step can do, said once: the pin changes and the DMA gap of a boundary, and the inversion of `step`.
Every claim about steps starts from `step_cases`. -/

namespace Sys2Proof.Machine

/-! ### The boundary -/

/-- A panel entry whose store is acknowledged (R197). -/
theorem State.panelEntry_done {s : State} (h : s.Acknowledges 1) : s.panelEntry =
    { s.takeAck.write ⟨.panel, 0, 0⟩ s.pc with ctrlff := true, fz := true, pdf := false, pc := 0o7777 } := by
  have h' : ({ s with ctrlff := true, fz := true, pdf := false } : State).Acknowledges 1 := h.of_acks rfl
  rw [State.panelEntry, State.writeOp_done _ _ h']
  rfl

/-- A panel entry whose store is never acknowledged: PC is still what was to be stored. -/
theorem State.panelEntry_held {s : State} (h : s.HangsAfter 0) : s.panelEntry =
    { s.heldAfter 0 (.write ⟨.panel, 0, 0⟩ s.pc) with ctrlff := true, fz := true, pdf := false } := by
  have h' : ({ s with ctrlff := true, fz := true, pdf := false } : State).HangsAfter 0 := h.of_acks rfl
  rw [State.panelEntry, State.writeOp, State.transact_held h']
  rfl

/-- A device interrupt grant whose store is acknowledged (R194). -/
theorem State.interruptGrant_done {s : State} (h : s.Acknowledges 1) : s.interruptGrant =
    { s.takeAck.write ⟨.main, 0, 0⟩ s.pc with
      ieff := false, intgntff := true, isf := s.ifr, dsf := s.df, ifr := 0, ib := 0, df := 0, pc := 1,
      nogrant := s.nogrant || !s.platform.consultAfterGrant } := by
  rw [State.interruptGrant, State.writeOp_done _ _ h]
  rfl

/-- An interrupt grant whose store is never acknowledged: no field is saved or cleared yet. -/
theorem State.interruptGrant_held {s : State} (h : s.HangsAfter 0) :
    s.interruptGrant = s.heldAfter 0 (.write ⟨.main, 0, 0⟩ s.pc) := by
  rw [State.interruptGrant, State.writeOp, State.transact_held h, Bus.finish_hung]

/-- A fetch that is never acknowledged (R188, R46). -/
theorem State.fetch_held {s : State} (h : s.HangsAfter 0) : s.fetch =
    .hung { s.heldAfter 0 (.fetch (s.instrAddr s.pc)) with ol := s.pc, nogrant := false } := by
  have h' : ({ s with ol := s.pc, nogrant := false } : State).HangsAfter 0 := h.of_acks rfl
  rw [State.fetch, State.fetchOp, State.transact_held h']
  rfl

/-- A fetch that is acknowledged (R188). -/
theorem State.fetch_done {s : State} (h : s.Acknowledges 1) : s.fetch =
    .done () { s.takeAck with ol := s.pc, ir := s.read (s.instrAddr s.pc), pc := s.pc + 1, nogrant := false } := by
  have h' : ({ s with ol := s.pc, nogrant := false } : State).Acknowledges 1 := h.of_acks rfl
  rw [State.fetch, State.fetchOp_done _ h']
  rfl

theorem State.panelEntry_wf {s : State} (h : s.mem.wf = true) : s.panelEntry.mem.wf = true := by
  have hw := State.writeOp_wf (s := { s with ctrlff := true, fz := true, pdf := false }) ⟨.panel, 0, 0⟩ s.pc h
  refine Bus.finish_of (P := fun t => t.mem.wf = true) hw fun v t e => ?_
  rwa [e] at hw

theorem State.interruptGrant_wf {s : State} (h : s.mem.wf = true) : s.interruptGrant.mem.wf = true := by
  have hw := State.writeOp_wf (s := s) ⟨.main, 0, 0⟩ s.pc h
  refine Bus.finish_of (P := fun t => t.mem.wf = true) hw fun v t e => ?_
  rwa [e] at hw

theorem State.startUp_wf {s : State} (h : s.mem.wf = true) : s.startUp.mem.wf = true := by
  unfold State.startUp
  split
  · exact State.panelEntry_wf h
  · exact h

theorem State.cutShort_wf {s : State} (h : s.mem.wf = true) : s.cutShort.mem.wf = true := by
  unfold State.cutShort
  split
  · exact Memory.write_wf h
  · exact h

theorem State.release_wf {s : State} (h : s.mem.wf = true) : s.release.mem.wf = true :=
  State.startUp_wf (s := { s with clocks := s.clocks + 11 }) h

theorem State.movePin_wf {s : State} (m : PinMove) (h : s.mem.wf = true) : (s.movePin m).mem.wf = true := by
  obtain ⟨pin, low⟩ := m
  cases pin <;> simp only [State.movePin] <;> try exact h
  split
  · split
    · exact h
    · exact State.cutShort_wf h
  · split
    · exact State.release_wf h
    · exact h

theorem State.movePin_foldl_wf {s : State} (ms : List PinMove) (h : s.mem.wf = true) :
    (ms.foldl State.movePin s).mem.wf = true := by
  induction ms generalizing s with
  | nil => exact h
  | cons m rest ih => exact ih (State.movePin_wf m h)

/-- A pin change other than RESET's changes the pins, RUNHLT and BTSTRP only, and not the level of RESET. -/
theorem State.movePin_frame {s : State} {m : PinMove} (h : m.pin ≠ .reset) :
    s.movePin m = { s with
      running := (s.movePin m).running, btstrp := (s.movePin m).btstrp, pins := (s.movePin m).pins } ∧
    (s.movePin m).pins.resetLow = s.pins.resetLow := by
  obtain ⟨pin, low⟩ := m
  cases pin <;> first | exact absurd rfl h | exact ⟨rfl, rfl⟩

theorem State.movePin_foldl_frame (ms : List PinMove) (s : State) (h : ∀ m ∈ ms, m.pin ≠ .reset) :
    ms.foldl State.movePin s = { s with
      running := (ms.foldl State.movePin s).running
      btstrp := (ms.foldl State.movePin s).btstrp
      pins := (ms.foldl State.movePin s).pins } ∧
    (ms.foldl State.movePin s).pins.resetLow = s.pins.resetLow := by
  induction ms generalizing s with
  | nil => exact ⟨rfl, rfl⟩
  | cons m rest ih =>
    obtain ⟨h1, h2⟩ := ih (s.movePin m) fun x hx => h x (List.mem_cons_of_mem _ hx)
    obtain ⟨h3, h4⟩ := State.movePin_frame (s := s) (h m List.mem_cons_self)
    refine ⟨?_, h2.trans h4⟩
    rw [List.foldl_cons, h1, h3]

/-- The pin changes of a boundary, none of them RESET's. -/
theorem State.movePins_frame {s : State} (h : ∀ m ∈ s.env.moves.headD [], m.pin ≠ .reset) :
    s.movePins = { s with
      running := s.movePins.running, btstrp := s.movePins.btstrp, pins := s.movePins.pins,
      env := { s.env with moves := s.env.moves.tail } } ∧
    s.movePins.pins.resetLow = s.pins.resetLow :=
  State.movePin_foldl_frame _ { s with env := { s.env with moves := s.env.moves.tail } } h

/-- Pin changes and the DMA gap keep memory in canonical form. -/
theorem State.boundary_wf {s : State} (h : s.mem.wf = true) : s.boundary.mem.wf = true := by
  have hm : s.movePins.mem.wf = true :=
    State.movePin_foldl_wf (s := { s with env := { s.env with moves := s.env.moves.tail } }) _ h
  unfold State.boundary State.boundaryGap
  split
  · exact hm
  · exact State.dmaGap_wf hm

/-- With no pin change and no DMA listed, the boundary changes nothing. -/
theorem State.boundary_idle {s : State} (hm : s.env.moves = []) (hd : s.env.dma = []) : s.boundary = s := by
  have h1 : s.movePins = s := by
    cases s with
    | mk => rename_i env _ _ _ _; cases env; simp_all [State.movePins]
  unfold State.boundary State.boundaryGap
  rw [h1]
  split
  · rfl
  · exact State.dmaGap_idle hd

/-! ### One step -/

/-- Running an instruction: the fetch waits, or the meaning answers and TEMP and the time are recorded. -/
theorem State.runInstruction_next {s t : State} (h : s.runInstruction = .next t) :
    (∃ u, s.fetch = .hung u ∧ t = u.spend none) ∨
      ∃ f u, s.fetch = .done () f ∧ exec f.current f = .next u ∧
        t = u.latchTemp.spendIfDone (minorCycles f.current f u) := by
  unfold State.runInstruction at h
  split at h
  · rename_i u hu
    exact .inl ⟨u, hu, by simpa using h.symm⟩
  · rename_i f hf
    split at h
    · rename_i u hu
      exact .inr ⟨f, u, hf, hu, by simpa using h.symm⟩
    · cases h
    · cases h

/-- Everything a step that answers a next state can have done. -/
theorem step_cases {s t : State} (h : step s = .next t) :
    (s.boundary.decision = .hold ∧ t = s.boundary) ∨
      (s.boundary.decision = .panelEntry ∧ t = s.boundary.panelEntry.spend none) ∨
      (s.boundary.decision = .interruptGrant ∧ t = s.boundary.interruptGrant.spendIfDone (some 4)) ∨
      (s.boundary.decision = .fetch ∧
        ((∃ u, s.boundary.fetch = .hung u ∧ t = u.spend none) ∨
          ∃ f u, s.boundary.fetch = .done () f ∧ exec f.current f = .next u ∧
            t = u.latchTemp.spendIfDone (minorCycles f.current f u))) := by
  unfold step at h
  split at h
  · rename_i hd
    exact .inl ⟨hd, by simpa using h.symm⟩
  · rename_i hd
    exact .inr (.inl ⟨hd, by simpa using h.symm⟩)
  · rename_i hd
    exact .inr (.inr (.inl ⟨hd, by simpa using h.symm⟩))
  · rename_i hd
    exact .inr (.inr (.inr ⟨hd, State.runInstruction_next h⟩))

/-- The network serves only outside reset, bus wait, DMA and halt (R188, R189). -/
theorem State.decision_serving {s : State} (h : s.decision ≠ .hold) : s.Serving := by
  unfold State.decision at h
  by_cases h1 : s.pins.resetLow = true
  · simp [h1] at h
  · by_cases h2 : s.waiting.isSome = true
    · simp [h1, h2] at h
    · by_cases h3 : s.pins.dmareqLow = true
      · simp [h1, h2, h3] at h
      · by_cases h4 : s.running = true
        · simp_all [State.Serving]
        · simp [h1, h2, h3, h4] at h

/-- What the network decides when it serves: the grant delay, the panel request, the interrupt, the fetch (R189, R190). -/
theorem State.decision_of_serving {s : State} (h : s.Serving) : s.decision =
    if s.nogrant then .fetch else if s.panelGrantable then .panelEntry
    else if s.interruptGrantable then .interruptGrant else .fetch := by
  obtain ⟨h1, h2, h3, h4⟩ := h
  simp [State.decision, h1, h2, h3, h4]

/-- The network enters panel mode only on a grantable request with no grant delay (R191). -/
theorem State.decision_panelEntry {s : State} (h : s.decision = .panelEntry) :
    s.Serving ∧ s.nogrant = false ∧ s.panelGrantable = true := by
  have hs : s.Serving := State.decision_serving (by simp [h])
  rw [State.decision_of_serving hs] at h
  refine ⟨hs, ?_⟩
  cases hn : s.nogrant <;> cases hp : s.panelGrantable <;> cases hi : s.interruptGrantable <;> simp_all

/-- The network grants a device interrupt only when it is grantable and no panel request is (R189, R193). -/
theorem State.decision_interruptGrant {s : State} (h : s.decision = .interruptGrant) :
    s.Serving ∧ s.nogrant = false ∧ s.panelGrantable = false ∧ s.interruptGrantable = true := by
  have hs : s.Serving := State.decision_serving (by simp [h])
  rw [State.decision_of_serving hs] at h
  refine ⟨hs, ?_⟩
  cases hn : s.nogrant <;> cases hp : s.panelGrantable <;> cases hi : s.interruptGrantable <;> simp_all

end Sys2Proof.Machine
end

