-- ==== Sys2Proof/Tests/Slice0.lean ====
section
/-! SUPPORT. The model's own tests. Expected values come from the encodings of rules R53 to R58 and the vectors of
spec/95_test_vectors.md (named M, G, H, Q, K, I, C, P, X, E and T there); and one witness for each statement with
hypotheses. -/

namespace Sys2Proof.Tests
open Sys2Proof.Machine

/-! ### WellFormed: an ill-formed term for each check -/

/-- 7001 is IAC's word (R76). -/
theorem test_wellFormed_refuses_named_group1 : (Instr.opr1 false false false false 0 true).wellFormed = false := by
  decide

/-- 7402 is HLT's word (R101). -/
theorem test_wellFormed_refuses_named_group2 :
    (Instr.opr2 false false false false false false true).wellFormed = false := by decide

/-- 7421 is MQL's word (R127). -/
theorem test_wellFormed_refuses_named_group3 : (Instr.opr3 false false false true 0).wellFormed = false := by decide

/-- Device code 20 is internal (R179). -/
theorem test_wellFormed_refuses_internal_device : (Instr.iot 0o20 0).wellFormed = false := by decide

/-- Device code 00 is internal (R179). -/
theorem test_wellFormed_refuses_device_zero : (Instr.iot 0 1).wellFormed = false := by decide

/-- Device codes 17 and 30, the neighbours of the internal ones, are external (R179). -/
theorem test_wellFormed_accepts_external_devices :
    (Instr.iot 0o17 7).wellFormed = true ∧ (Instr.iot 0o30 0).wellFormed = true := by decide

/-- In panel mode 6000 is PRS, not SKON (R59). -/
theorem test_inMode_refuses_skon_in_panel_mode : Instr.skon.inMode true = false ∧ Instr.prs.inMode false = false := by
  decide

/-! ### Decoding: a word written bit by bit for every constructor (R53 to R58) -/

/-- R53: opcode, bit 3 indirect, bit 4 current page, page address. -/
theorem test_decode_memoryReference :
    decodeWord false 0b000_0_1_1111111 = .and false true 0o177 ∧
    decodeWord false 0b001_1_0_0001000 = .tad true false 0o010 ∧
    decodeWord false 0b010_1_1_0000000 = .isz true true 0 ∧
    decodeWord false 0b011_0_0_0000001 = .dca false false 1 ∧
    decodeWord false 0b100_0_1_1101000 = .jms false true 0o150 ∧
    decodeWord false 0b101_1_1_1111111 = .jmp true true 0o177 := by decide

/-- R54, R74: CLA CLL CMA CML, the rotate code, IAC. -/
theorem test_decode_group1 :
    decodeWord false 0b1110_0000_000_0 = .nop1 ∧ decodeWord false 0b1110_0000_000_1 = .iac ∧
    decodeWord false 0b1110_0000_001_0 = .bsw ∧ decodeWord false 0b1110_0000_010_0 = .ral ∧
    decodeWord false 0b1110_0000_011_0 = .rtl ∧ decodeWord false 0b1110_0000_100_0 = .rar ∧
    decodeWord false 0b1110_0000_101_0 = .rtr ∧ decodeWord false 0b1110_0000_110_0 = .r3l ∧
    decodeWord false 0b1110_0001_000_0 = .cml ∧ decodeWord false 0b1110_0010_000_0 = .cma ∧
    decodeWord false 0b1110_0010_000_1 = .cia ∧ decodeWord false 0b1110_0100_000_0 = .cll ∧
    decodeWord false 0b1110_0100_010_0 = .cllRal ∧ decodeWord false 0b1110_0100_011_0 = .cllRtl ∧
    decodeWord false 0b1110_0100_100_0 = .cllRar ∧ decodeWord false 0b1110_0100_101_0 = .cllRtr ∧
    decodeWord false 0b1110_0101_000_0 = .stl ∧ decodeWord false 0b1110_1000_000_0 = .cla1 ∧
    decodeWord false 0b1110_1000_000_1 = .claIac ∧ decodeWord false 0b1110_1000_010_0 = .glk ∧
    decodeWord false 0b1110_1010_000_0 = .sta ∧ decodeWord false 0b1110_1100_000_0 = .claCll ∧
    decodeWord false 0b1110_1010_000_1 = .opr1 true false true false 0 true ∧
    decodeWord false 0b1110_0000_111_0 = .opr1 false false false false 7 false ∧
    decodeWord false 0b1110_1101_011_0 = .opr1 true true false true 3 false := by decide

/-- R55: CLA, the three tests, the sense, OSR, HLT. -/
theorem test_decode_group2 :
    decodeWord false 0b1111_0_000_0_00_0 = .nop2 ∧ decodeWord false 0b1111_0_000_0_01_0 = .hlt ∧
    decodeWord false 0b1111_0_000_0_10_0 = .osr ∧ decodeWord false 0b1111_0_000_1_00_0 = .skp ∧
    decodeWord false 0b1111_0_001_0_00_0 = .snl ∧ decodeWord false 0b1111_0_001_1_00_0 = .szl ∧
    decodeWord false 0b1111_0_010_0_00_0 = .sza ∧ decodeWord false 0b1111_0_010_1_00_0 = .sna ∧
    decodeWord false 0b1111_0_011_0_00_0 = .szaSnl ∧ decodeWord false 0b1111_0_011_1_00_0 = .snaSzl ∧
    decodeWord false 0b1111_0_100_0_00_0 = .sma ∧ decodeWord false 0b1111_0_100_1_00_0 = .spa ∧
    decodeWord false 0b1111_0_101_0_00_0 = .smaSnl ∧ decodeWord false 0b1111_0_101_1_00_0 = .spaSzl ∧
    decodeWord false 0b1111_0_110_0_00_0 = .smaSza ∧ decodeWord false 0b1111_0_110_1_00_0 = .spaSna ∧
    decodeWord false 0b1111_0_111_0_00_0 = .smaSzaSnl ∧ decodeWord false 0b1111_0_111_1_00_0 = .spaSnaSzl ∧
    decodeWord false 0b1111_1_000_0_00_0 = .cla2 ∧ decodeWord false 0b1111_1_000_0_10_0 = .las ∧
    decodeWord false 0b1111_1_010_0_00_0 = .szaCla ∧ decodeWord false 0b1111_1_010_1_00_0 = .snaCla ∧
    decodeWord false 0b1111_1_100_0_00_0 = .smaCla ∧ decodeWord false 0b1111_1_100_1_00_0 = .spaCla ∧
    decodeWord false 0b1111_0_000_1_01_0 = .opr2 false false false false true false true ∧
    decodeWord false 0b1111_1_010_0_10_0 = .opr2 true false true false false true false := by decide

/-- R56: CLA, MQA, bit 6, MQL, bits 8 to 10. -/
theorem test_decode_group3 :
    decodeWord false 0b1111_0000_000_1 = .nop3 ∧ decodeWord false 0b1111_0001_000_1 = .mql ∧
    decodeWord false 0b1111_0100_000_1 = .mqa ∧ decodeWord false 0b1111_0101_000_1 = .swp ∧
    decodeWord false 0b1111_1000_000_1 = .cla3 ∧ decodeWord false 0b1111_1001_000_1 = .cam ∧
    decodeWord false 0b1111_1100_000_1 = .acl ∧ decodeWord false 0b1111_1101_000_1 = .claSwp ∧
    decodeWord false 0b1111_0001_100_1 = .opr3 false false false true 4 ∧
    decodeWord false 0b1111_0111_101_1 = .opr3 false true true true 5 := by decide

/-- R57, R58: the last digit 5 or 7 of device codes 20 to 27. -/
theorem test_decode_stack :
    decodeWord false 0b110_010000_101 = .ppc1 ∧ decodeWord false 0b110_010001_101 = .pac1 ∧
    decodeWord false 0b110_010010_101 = .rtn1 ∧ decodeWord false 0b110_010011_101 = .pop1 ∧
    decodeWord false 0b110_010100_101 = .ppc2 ∧ decodeWord false 0b110_010101_101 = .pac2 ∧
    decodeWord false 0b110_010110_101 = .rtn2 ∧ decodeWord false 0b110_010111_101 = .pop2 ∧
    decodeWord false 0b110_010000_111 = .rsp1 ∧ decodeWord false 0b110_010001_111 = .lsp1 ∧
    decodeWord false 0b110_010010_111 = .rsp2 ∧ decodeWord false 0b110_010011_111 = .lsp2 := by decide

/-- R57 to R59: device code 00 and the control words of device codes 20 to 27, in main mode. -/
theorem test_decode_control :
    decodeWord false 0b110_000000_000 = .skon ∧ decodeWord false 0b110_000000_001 = .ion ∧
    decodeWord false 0b110_000000_010 = .iof ∧ decodeWord false 0b110_000000_011 = .srq ∧
    decodeWord false 0b110_000000_100 = .gtf ∧ decodeWord false 0b110_000000_101 = .rtf ∧
    decodeWord false 0b110_000000_110 = .sgt ∧ decodeWord false 0b110_000000_111 = .caf ∧
    decodeWord false 0b110_010000_110 = .pr0 ∧ decodeWord false 0b110_010001_110 = .pr1 ∧
    decodeWord false 0b110_010010_110 = .pr2 ∧ decodeWord false 0b110_010011_110 = .pr3 ∧
    decodeWord false 0b110_010100_110 = .wsr ∧ decodeWord false 0b110_010101_110 = .gcf ∧
    decodeWord false 0b110_010110_110 = .cpd ∧ decodeWord false 0b110_010111_110 = .spd := by decide

/-- R59: the three words of the other mode. -/
theorem test_decode_panelControl :
    decodeWord true 0b110_000000_000 = .prs ∧ decodeWord true 0b110_000000_011 = .pgo ∧
    decodeWord true 0b110_000000_100 = .pex := by decide

/-- R57: the third digit is the field number. -/
theorem test_decode_memoryExtension :
    decodeWord false 0b110_010_101_001 = .cdf 5 ∧ decodeWord false 0b110_010_011_010 = .cif 3 ∧
    decodeWord false 0b110_010_111_011 = .cdfCif 7 ∧ decodeWord false 0b110_010_001_100 = .rdf ∧
    decodeWord false 0b110_010_010_100 = .rif ∧ decodeWord false 0b110_010_011_100 = .rib ∧
    decodeWord false 0b110_010_100_100 = .rmf := by decide

/-- R57, R179, R184: external device codes, and the 16 internal words without a definition. -/
theorem test_decode_iot :
    decodeWord false 0b110_000011_001 = .iot 3 1 ∧ decodeWord false 0b110_001111_111 = .iot 0o17 7 ∧
    decodeWord false 0b110_011000_000 = .iot 0o30 0 ∧ decodeWord false 0b110_010000_000 = .reserved6200 ∧
    decodeWord false 0b110_010001_000 = .reserved6210 ∧ decodeWord false 0b110_010010_000 = .reserved6220 ∧
    decodeWord false 0b110_010011_000 = .reserved6230 ∧ decodeWord false 0b110_010100_000 = .reserved6240 ∧
    decodeWord false 0b110_010101_000 = .reserved6250 ∧ decodeWord false 0b110_010110_000 = .reserved6260 ∧
    decodeWord false 0b110_010111_000 = .reserved6270 ∧ decodeWord false 0b110_010000_100 = .reserved6204 ∧
    decodeWord false 0b110_010101_100 = .reserved6254 ∧ decodeWord false 0b110_010110_100 = .reserved6264 ∧
    decodeWord false 0b110_010111_100 = .reserved6274 ∧ decodeWord false 0b110_010100_111 = .reserved6247 ∧
    decodeWord false 0b110_010101_111 = .reserved6257 ∧ decodeWord false 0b110_010110_111 = .reserved6267 ∧
    decodeWord false 0b110_010111_111 = .reserved6277 := by decide

/-- A number with a thirteenth bit is no word. -/
theorem test_decode_rejects_thirteen_bits : decode false 0o10000 = .error .notTwelveBits := rfl

/-- The table's rows are read through the decoder: 1377 in 16 bits (R53). -/
theorem test_decodeTableWord : decodeTableWord 16 0o1377 = some (.tad false true 0o177) := by decide

/-! ### One step of each instruction (spec/95_test_vectors.md) -/

/-- The start state of the vectors: after reset, PC at 0200, the word there. -/
def start (w : Word) : State :=
  { State.reset with pc := 0o200, mem := Memory.cons 0o200 w [] }

/-- The same in panel mode with FZ set: PC at 0200 of panel field 0. -/
def startPanel (w : Word) : State :=
  { State.reset with ctrlff := true, fz := true, pc := 0o200, mem := Memory.cons (32768 + 0o200) w [] }

/-- One word of main memory set. -/
def putMain (s : State) (f : Field) (o v : Word) : State :=
  s.write ⟨.main, f, o⟩ v

/-- One word of panel memory set. -/
def putPanel (s : State) (f : Field) (o v : Word) : State :=
  s.write ⟨.panel, f, o⟩ v

/-- The pins with INTREQ low. -/
def requested : Pins :=
  { State.reset.pins with intreqLow := true }

/-- The platform with STRTUP low (R213). -/
def panelStart : Platform :=
  { Platform.standard with strtupLow := true }

/-- Something read from the state after one step. -/
def after {α : Type} (s : State) (f : State → α) : Option α :=
  match step s with
  | .next t => some (f t)
  | _ => none

/-- M1. -/
theorem test_and :
    after { putMain (start 0o0177) 0 0o177 0o7070 with ac := 0o1234, l := true }
      (fun t => (t.ac, t.l, t.pc)) =
        some (0o1030, true, 0o201) := by decide

/-- M4: a carry complements L. -/
theorem test_tad_carry :
    after { putMain (start 0o1377) 0 0o377 1 with ac := 0o7777, l := true }
      (fun t => (t.ac, t.l, t.pc)) =
        some (0, false, 0o201) := by decide

/-- M10: pointer from IF, operand from DF. -/
theorem test_tad_indirect_fields :
    after { start 0 with
        ifr := 3, ib := 3, df := 5, ac := 1
        mem := [(0o30200, 0o1777), (0o30377, 0o1000), (0o31000, 0o7777), (0o51000, 0o22)] }
      (fun t => t.ac) =
        some 0o23 := by decide

/-- M7. -/
theorem test_isz_skips :
    after { putMain (start 0o2377) 0 0o377 0o7777 with ac := 5, l := true }
      (fun t => (t.read ⟨.main, 0, 0o377⟩, t.pc, t.ac, t.l)) =
        some (0, 0o202, 5, true) := by decide

/-- M15: the autoindexed pointer names itself. -/
theorem test_isz_through_its_own_pointer :
    after (putMain (start 0o2410) 0 0o10 7)
      (fun t => (t.read ⟨.main, 0, 0o10⟩, t.pc)) =
        some (0o11, 0o201) := by decide

/-- M9. -/
theorem test_dca :
    after { start 0o3377 with ac := 0o1234, l := true }
      (fun t => (t.read ⟨.main, 0, 0o377⟩, t.ac, t.l)) =
        some (0o1234, 0, true) := by decide

/-- M11: the pointer wraps, the store goes to DF. -/
theorem test_dca_autoindex_wraps :
    after (putMain { start 0 with ifr := 3, ib := 3, df := 5, ac := 0o55, mem := [(0o30200, 0o3410)] } 3 0o10 0o7777)
      (fun t => (t.read ⟨.main, 3, 0o10⟩, t.read ⟨.main, 5, 0⟩, t.ac)) =
        some (0, 0o55, 0) := by decide

/-- M17: at 7777 the return address 0000 overwrites the JMS. -/
theorem test_jms_over_itself :
    after { start 0 with pc := 0o7777, mem := [(0o7777, 0o4377)] }
      (fun t => (t.read ⟨.main, 0, 0o7777⟩, t.pc)) =
        some (0, 0) := by decide

/-- M19: the return address goes to the new field. -/
theorem test_jms_changes_field :
    after { start 0o4350 with ib := 2, iiff := true }
      (fun t => (t.ifr, t.iiff, t.read ⟨.main, 2, 0o350⟩, t.read ⟨.main, 0, 0o350⟩, t.pc)) =
        some (2, false, 0o201, 0, 0o351) := by decide

/-- M21. -/
theorem test_jmp_pointer_in_old_field :
    after { putMain (start 0o5777) 0 0o377 0o1234 with ib := 4, iiff := true }
      (fun t => (t.pc, t.ifr, t.iiff)) =
        some (0o1234, 4, false) := by decide

/-- M23. -/
theorem test_jmp_autoindex :
    after (putMain (start 0o5410) 0 0o10 0o7777) (fun t => (t.read ⟨.main, 0, 0o10⟩, t.pc)) = some (0, 0) := by decide

/-- M24: with PDF clear an indirect operand is in main memory. -/
theorem test_panel_operand_in_main_memory :
    after (putMain (putPanel { startPanel 0o1777 with ifr := 3, ib := 3, df := 5 } 0 0o377 0o1000) 5 0o1000 0o22)
      (fun t => t.ac) =
        some 0o22 := by decide

/-- G1. -/
theorem test_nop1 :
    after { start 0o7000 with ac := 0o1234, l := true }
      (fun t => (t.ac, t.l, t.pc)) =
        some (0o1234, true, 0o201) := by decide

/-- G3: a carry complements L. -/
theorem test_iac :
    after { start 0o7001 with ac := 0o7777, l := true }
      (fun t => (t.ac, t.l, t.pc)) =
        some (0, false, 0o201) := by decide

/-- G4. -/
theorem test_bsw :
    after { start 0o7002 with ac := 0o1234, l := true }
      (fun t => (t.ac, t.l, t.pc)) =
        some (0o3412, true, 0o201) := by decide

/-- G5. -/
theorem test_ral :
    after { start 0o7004 with ac := 0o4001, l := false }
      (fun t => (t.ac, t.l, t.pc)) =
        some (2, true, 0o201) := by decide

/-- G6. -/
theorem test_rtl :
    after { start 0o7006 with ac := 0o6000, l := true }
      (fun t => (t.ac, t.l, t.pc)) =
        some (3, true, 0o201) := by decide

/-- G7. -/
theorem test_rar :
    after { start 0o7010 with ac := 1, l := false } (fun t => (t.ac, t.l, t.pc)) = some (0, true, 0o201) := by decide

/-- G8. -/
theorem test_rtr :
    after { start 0o7012 with ac := 3, l := false }
      (fun t => (t.ac, t.l, t.pc)) =
        some (0o4000, true, 0o201) := by decide

/-- G9. -/
theorem test_r3l :
    after { start 0o7014 with ac := 0o1234, l := true }
      (fun t => (t.ac, t.l, t.pc)) =
        some (0o2341, true, 0o201) := by decide

/-- G10. -/
theorem test_cml :
    after { start 0o7020 with ac := 0, l := false } (fun t => (t.ac, t.l, t.pc)) = some (0, true, 0o201) := by decide

/-- G11. -/
theorem test_cma :
    after { start 0o7040 with ac := 0o1234, l := false }
      (fun t => (t.ac, t.l, t.pc)) =
        some (0o6543, false, 0o201) := by decide

/-- G12: negating zero carries. -/
theorem test_cia :
    after { start 0o7041 with ac := 0, l := false } (fun t => (t.ac, t.l, t.pc)) = some (0, true, 0o201) := by decide

/-- G13. -/
theorem test_cia_most_negative :
    after { start 0o7041 with ac := 0o4000, l := true }
      (fun t => (t.ac, t.l, t.pc)) =
        some (0o4000, true, 0o201) := by decide

/-- G15. -/
theorem test_cll :
    after { start 0o7100 with ac := 5, l := true } (fun t => (t.ac, t.l, t.pc)) = some (5, false, 0o201) := by decide

/-- G16. -/
theorem test_cllRal :
    after { start 0o7104 with ac := 0o4000, l := true }
      (fun t => (t.ac, t.l, t.pc)) =
        some (0, true, 0o201) := by decide

/-- G17. -/
theorem test_cllRtl :
    after { start 0o7106 with ac := 0o6000, l := true }
      (fun t => (t.ac, t.l, t.pc)) =
        some (1, true, 0o201) := by decide

/-- G18. -/
theorem test_cllRar :
    after { start 0o7110 with ac := 1, l := true } (fun t => (t.ac, t.l, t.pc)) = some (0, true, 0o201) := by decide

/-- G19. -/
theorem test_cllRtr :
    after { start 0o7112 with ac := 3, l := true }
      (fun t => (t.ac, t.l, t.pc)) =
        some (0o4000, true, 0o201) := by decide

/-- G20. -/
theorem test_stl :
    after { start 0o7120 with ac := 0, l := false } (fun t => (t.ac, t.l, t.pc)) = some (0, true, 0o201) := by decide

/-- G21. -/
theorem test_cla1 :
    after { start 0o7200 with ac := 0o7777, l := true }
      (fun t => (t.ac, t.l, t.pc)) =
        some (0, true, 0o201) := by decide

/-- G22. -/
theorem test_claIac :
    after { start 0o7201 with ac := 0o7777, l := true }
      (fun t => (t.ac, t.l, t.pc)) =
        some (1, true, 0o201) := by decide

/-- G23. -/
theorem test_glk :
    after { start 0o7204 with ac := 0o1234, l := true }
      (fun t => (t.ac, t.l, t.pc)) =
        some (1, false, 0o201) := by decide

/-- G24. -/
theorem test_sta :
    after { start 0o7240 with ac := 0, l := true }
      (fun t => (t.ac, t.l, t.pc)) =
        some (0o7777, true, 0o201) := by decide

/-- G25. -/
theorem test_claCll :
    after { start 0o7300 with ac := 0o7777, l := true }
      (fun t => (t.ac, t.l, t.pc)) =
        some (0, false, 0o201) := by decide

/-- G28: CMA CML IAC. -/
theorem test_opr1_cml_then_carry :
    after { start 0o7061 with ac := 0, l := false } (fun t => (t.ac, t.l, t.pc)) = some (0, false, 0o201) := by decide

/-- G29: CLL IAC RAL. -/
theorem test_opr1_increment_then_rotate :
    after { start 0o7105 with ac := 0o7777, l := true }
      (fun t => (t.ac, t.l, t.pc)) =
        some (1, false, 0o201) := by decide

/-- The skip matrix of 2.3. -/
theorem test_nop2 :
    after { start 0o7400 with ac := 0o4000, l := true }
      (fun t => (t.pc, t.ac, t.l)) =
        some (0o201, 0o4000, true) := by decide

/-- The skip matrix of 2.3. -/
theorem test_skp :
    after { start 0o7410 with ac := 0, l := false } (fun t => (t.pc, t.ac, t.l)) = some (0o202, 0, false) := by decide

/-- The skip matrix of 2.3. -/
theorem test_snl :
    after { start 0o7420 with ac := 0, l := true } (fun t => (t.pc, t.ac, t.l)) = some (0o202, 0, true) := by decide

/-- The skip matrix of 2.3. -/
theorem test_szl :
    after { start 0o7430 with ac := 0, l := true } (fun t => (t.pc, t.ac, t.l)) = some (0o201, 0, true) := by decide

/-- The skip matrix of 2.3. -/
theorem test_sza :
    after { start 0o7440 with ac := 0, l := false } (fun t => (t.pc, t.ac, t.l)) = some (0o202, 0, false) := by decide

/-- The skip matrix of 2.3. -/
theorem test_sna :
    after { start 0o7450 with ac := 0, l := false } (fun t => (t.pc, t.ac, t.l)) = some (0o201, 0, false) := by decide

/-- The skip matrix of 2.3. -/
theorem test_szaSnl :
    after { start 0o7460 with ac := 0o4000, l := true }
      (fun t => (t.pc, t.ac, t.l)) =
        some (0o202, 0o4000, true) := by decide

/-- The skip matrix of 2.3. -/
theorem test_snaSzl :
    after { start 0o7470 with ac := 1, l := true } (fun t => (t.pc, t.ac, t.l)) = some (0o201, 1, true) := by decide

/-- The skip matrix of 2.3. -/
theorem test_sma :
    after { start 0o7500 with ac := 0o4000, l := false }
      (fun t => (t.pc, t.ac, t.l)) =
        some (0o202, 0o4000, false) := by decide

/-- The skip matrix of 2.3. -/
theorem test_spa :
    after { start 0o7510 with ac := 0, l := true } (fun t => (t.pc, t.ac, t.l)) = some (0o202, 0, true) := by decide

/-- The skip matrix of 2.3. -/
theorem test_smaSnl :
    after { start 0o7520 with ac := 1, l := true } (fun t => (t.pc, t.ac, t.l)) = some (0o202, 1, true) := by decide

/-- The skip matrix of 2.3. -/
theorem test_spaSzl :
    after { start 0o7530 with ac := 1, l := true } (fun t => (t.pc, t.ac, t.l)) = some (0o201, 1, true) := by decide

/-- The skip matrix of 2.3. -/
theorem test_smaSza :
    after { start 0o7540 with ac := 0, l := false } (fun t => (t.pc, t.ac, t.l)) = some (0o202, 0, false) := by decide

/-- The skip matrix of 2.3. -/
theorem test_spaSna :
    after { start 0o7550 with ac := 0, l := false } (fun t => (t.pc, t.ac, t.l)) = some (0o201, 0, false) := by decide

/-- The skip matrix of 2.3. -/
theorem test_smaSzaSnl :
    after { start 0o7560 with ac := 1, l := false } (fun t => (t.pc, t.ac, t.l)) = some (0o201, 1, false) := by decide

/-- The skip matrix of 2.3. -/
theorem test_spaSnaSzl :
    after { start 0o7570 with ac := 1, l := false } (fun t => (t.pc, t.ac, t.l)) = some (0o202, 1, false) := by decide

/-- The skip matrix of 2.3. -/
theorem test_cla2 :
    after { start 0o7600 with ac := 0o4000, l := true }
      (fun t => (t.pc, t.ac, t.l)) =
        some (0o201, 0, true) := by decide

/-- The skip matrix of 2.3. -/
theorem test_szaCla :
    after { start 0o7640 with ac := 0, l := false } (fun t => (t.pc, t.ac, t.l)) = some (0o202, 0, false) := by decide

/-- The skip matrix of 2.3. -/
theorem test_snaCla :
    after { start 0o7650 with ac := 1, l := false } (fun t => (t.pc, t.ac, t.l)) = some (0o202, 0, false) := by decide

/-- The skip matrix of 2.3. -/
theorem test_smaCla :
    after { start 0o7700 with ac := 1, l := false } (fun t => (t.pc, t.ac, t.l)) = some (0o201, 0, false) := by decide

/-- The skip matrix of 2.3. -/
theorem test_spaCla :
    after { start 0o7710 with ac := 0, l := false } (fun t => (t.pc, t.ac, t.l)) = some (0o202, 0, false) := by decide

/-- H1. -/
theorem test_osr :
    after { start 0o7404 with ac := 0o70, env := { State.reset.env with switches := [0o1234] } }
      (fun t => (t.ac, t.env.bus)) =
        some (0o1274, [.switchRead 0]) := by decide

/-- H2. -/
theorem test_las :
    after { start 0o7604 with ac := 0o70, env := { State.reset.env with switches := [0o1234] } }
      (fun t => t.ac) =
        some 0o1234 := by decide

/-- H3: SZA CLA OSR. -/
theorem test_opr2_skip_clear_read :
    after { start 0o7644 with env := { State.reset.env with switches := [0o1234] } }
      (fun t => (t.pc, t.ac)) =
        some (0o202, 0o1234) := by decide

/-- H6: HLT OSR. -/
theorem test_opr2_halt_and_read :
    after { start 0o7406 with env := { State.reset.env with switches := [7] } }
      (fun t => (t.ac, t.hltflg)) =
        some (7, true) := by decide

/-- H4: the flag is set and the machine goes on. -/
theorem test_hlt :
    after { start 0o7402 with ac := 5 }
      (fun t => (t.hltflg, t.pc, t.ac, t.running)) =
        some (true, 0o201, 5, true) := by decide

/-- 2.4. -/
theorem test_nop3 :
    after { start 0o7401 with ac := 0o1234, mq := 0o5670 }
      (fun t => (t.ac, t.mq, t.nogrant)) =
        some (0o1234, 0o5670, false) := by decide

/-- 2.4. -/
theorem test_mql :
    after { start 0o7421 with ac := 0o1234, mq := 0o5670 }
      (fun t => (t.ac, t.mq, t.nogrant)) =
        some (0, 0o1234, false) := by decide

/-- 2.4. -/
theorem test_mqa :
    after { start 0o7501 with ac := 0o70, mq := 0o707 }
      (fun t => (t.ac, t.mq, t.nogrant)) =
        some (0o777, 0o707, false) := by decide

/-- 2.4. -/
theorem test_swp :
    after { start 0o7521 with ac := 0o1111, mq := 0o2222 }
      (fun t => (t.ac, t.mq, t.nogrant)) =
        some (0o2222, 0o1111, false) := by decide

/-- 2.4. -/
theorem test_cla3 :
    after { start 0o7601 with ac := 0o1234, mq := 0o5670 }
      (fun t => (t.ac, t.mq, t.nogrant)) =
        some (0, 0o5670, false) := by decide

/-- 2.4. -/
theorem test_cam :
    after { start 0o7621 with ac := 0o1234, mq := 0o5670 }
      (fun t => (t.ac, t.mq, t.nogrant)) =
        some (0, 0, false) := by decide

/-- 2.4. -/
theorem test_acl :
    after { start 0o7701 with ac := 0o7777, mq := 0o123 }
      (fun t => (t.ac, t.mq, t.nogrant)) =
        some (0o123, 0o123, false) := by decide

/-- 2.4. -/
theorem test_claSwp :
    after { start 0o7721 with ac := 0o7777, mq := 0o123 }
      (fun t => (t.ac, t.mq, t.nogrant)) =
        some (0o123, 0, false) := by decide

/-- 2.4. -/
theorem test_opr3_bit8 :
    after { start 0o7431 with ac := 0o1234, mq := 0o5670 }
      (fun t => (t.ac, t.mq, t.nogrant)) =
        some (0, 0o1234, true) := by decide

/-- 2.4. -/
theorem test_opr3_bit10 :
    after { start 0o7403 with ac := 0o1111, mq := 0o2222 }
      (fun t => (t.ac, t.mq, t.nogrant)) =
        some (0o1111, 0o2222, true) := by decide

/-- K1. -/
theorem test_ppc1 :
    after { start 0o6205 with sp1 := 0o177 }
      (fun t => (t.read ⟨.main, 0, 0o177⟩, t.sp1, t.pc)) =
        some (0o202, 0o176, 0o201) := by decide

/-- K3: the stack is in field 0, not in IF. -/
theorem test_ppc2_in_field_zero :
    after { start 0 with ifr := 3, ib := 3, sp2 := 0o100, mem := [(0o30200, 0o6245)] }
      (fun t => (t.read ⟨.main, 0, 0o100⟩, t.sp2)) =
        some (0o202, 0o77) := by decide

/-- K4. -/
theorem test_pac1 :
    after { start 0o6215 with ac := 0o1234, sp1 := 0o177 }
      (fun t => (t.read ⟨.main, 0, 0o177⟩, t.sp1, t.ac)) =
        some (0o1234, 0o176, 0o1234) := by decide

/-- K5. -/
theorem test_pac2_in_panel_memory :
    after { startPanel 0o6255 with ac := 0o77, sp2 := 0o100 }
      (fun t => (t.read ⟨.panel, 0, 0o100⟩, t.sp2)) =
        some (0o77, 0o77) := by decide

/-- K6. -/
theorem test_pop1 :
    after (putMain { start 0o6235 with sp1 := 0o176 } 0 0o177 0o1234)
      (fun t => (t.sp1, t.ac)) =
        some (0o177, 0o1234) := by decide

/-- K7. -/
theorem test_pop2_wraps :
    after (putMain { start 0o6275 with sp2 := 0o7777 } 0 0 0o4321)
      (fun t => (t.sp2, t.ac)) =
        some (0, 0o4321) := by decide

/-- K8. -/
theorem test_rtn1 :
    after (putMain { start 0o6225 with sp1 := 0o176 } 0 0o177 0o202)
      (fun t => (t.sp1, t.pc)) =
        some (0o177, 0o202) := by decide

/-- K10: the main stack is read. -/
theorem test_rtn1_leaves_panel_mode :
    after (putMain (putPanel { startPanel 0o6225 with sp1 := 0o77, pexff := true } 0 0o100 0o2000) 0 0o100 0o1000)
      (fun t => (t.sp1, t.ctrlff, t.pexff, t.nogrant, t.pc)) =
        some (0o100, false, false, true, 0o1000) := by decide

/-- K9. -/
theorem test_rtn2_changes_field :
    after (putMain { start 0o6265 with sp2 := 0o77, ib := 2, iiff := true } 0 0o100 0o1000)
      (fun t => (t.sp2, t.ifr, t.iiff, t.pc)) =
        some (0o100, 2, false, 0o1000) := by decide

/-- K12. -/
theorem test_rsp1 :
    after { start 0o6207 with sp1 := 0o1234, ac := 0o7777 } (fun t => t.ac) = some 0o1234 := by decide

/-- K13. -/
theorem test_rsp2 :
    after { start 0o6227 with sp2 := 0o4321, ac := 0o7777 } (fun t => t.ac) = some 0o4321 := by decide

/-- K14. -/
theorem test_lsp1 :
    after { start 0o6217 with ac := 0o177 } (fun t => (t.sp1, t.sp2, t.ac)) = some (0o177, 0, 0) := by decide

/-- K15. -/
theorem test_lsp2 :
    after { start 0o6237 with ac := 0o1111 } (fun t => (t.sp1, t.sp2, t.ac)) = some (0, 0o1111, 0) := by decide

/-- I1. -/
theorem test_ion :
    after (start 0o6001) (fun t => (t.ieff, t.nogrant)) = some (true, true) := by decide

/-- I2. -/
theorem test_iof :
    after { start 0o6002 with ieff := true, nogrant := true, pins := requested }
      (fun t => (t.ieff, t.pc)) =
        some (false, 0o201) := by decide

/-- I5. -/
theorem test_rtf :
    after { start 0o6005 with ac := 0o4213 }
      (fun t => ((t.l, t.gt, t.ieff, t.iiff), t.ib, t.df, t.ac, t.ifr)) =
        some ((true, false, true, true), 1, 3, 0, 0) := by decide

/-- I6. -/
theorem test_sgt :
    after { start 0o6006 with gt := true } (fun t => (t.pc, t.gt)) = some (0o202, true) := by decide

/-- I8. -/
theorem test_caf :
    after { start 0o6007 with ac := 0o1234, l := true, gt := true, ieff := true, mq := 0o55, df := 3 }
      (fun t => ((t.ac, t.l, t.gt, t.ieff), t.mq, t.df, t.env.bus)) =
        some ((0, false, false, false), 0o55, 3, [.ioClear false]) := by decide

/-- I9. -/
theorem test_wsr :
    after { start 0o6246 with ac := 0o1234, df := 2 }
      (fun t => (t.ac, t.env.bus)) =
        some (0, [.switchWrite 2 0o1234]) := by decide

/-- I11. -/
theorem test_gcf :
    after { start 0 with l := true, ieff := true, ifr := 2, ib := 2, df := 5, mem := [(0o20200, 0o6256)] }
      (fun t => t.ac) =
        some 0o4225 := by decide

/-- C1. -/
theorem test_skon :
    after { start 0o6000 with ieff := true } (fun t => (t.pc, t.ieff)) = some (0o202, false) := by decide

/-- C3. -/
theorem test_srq :
    after { start 0o6003 with pins := requested } (fun t => t.pc) = some 0o202 := by decide

/-- C5: bit 4 is a constant. -/
theorem test_gtf :
    after { start 0o6004 with l := true, gt := true, isf := 7, dsf := 6 } (fun t => t.ac) = some 0o6276 := by decide

/-- C7. -/
theorem test_pr0 :
    after { start 0o6206 with ac := 3 } (fun t => (t.pnltrp, t.pc, t.ac)) = some (true, 0o201, 3) := by decide

/-- C7. -/
theorem test_pr1 :
    after { start 0o6216 with ac := 3 } (fun t => (t.pnltrp, t.pc, t.ac)) = some (true, 0o201, 3) := by decide

/-- C7. -/
theorem test_pr2 :
    after { start 0o6226 with ac := 3 } (fun t => (t.pnltrp, t.pc, t.ac)) = some (true, 0o201, 3) := by decide

/-- C7. -/
theorem test_pr3 :
    after { start 0o6236 with ac := 3 } (fun t => (t.pnltrp, t.pc, t.ac)) = some (true, 0o201, 3) := by decide

/-- C8. -/
theorem test_pr0_in_panel_mode :
    after (startPanel 0o6206) (fun t => t.pnltrp) = some false := by decide

/-- P1. -/
theorem test_prs :
    after { startPanel 0o6000 with btstrp := true, pnltrp := true, pwron := true, hltflg := true, ac := 0o7777, pins := requested }
      (fun t => (t.ac, t.btstrp, t.pnltrp, t.pwron, t.hltflg)) =
        some (0o7600, false, false, false, true) := by decide

/-- P4. -/
theorem test_pgo :
    after { startPanel 0o6003 with hltflg := true } (fun t => t.hltflg) = some false := by decide

/-- P5. -/
theorem test_pex :
    after { startPanel 0o6004 with pwron := true, pnltrp := true, hltflg := true }
      (fun t => (t.pexff, t.pwron, t.pnltrp, t.hltflg, t.ctrlff)) =
        some (true, false, false, true, true) := by decide

/-- P7. -/
theorem test_cpd :
    after { startPanel 0o6266 with pdf := true } (fun t => t.pdf) = some false := by decide

/-- P6. -/
theorem test_spd :
    after (startPanel 0o6276) (fun t => t.pdf) = some true := by decide

/-- X1. -/
theorem test_cdf :
    after (start 0o6251) (fun t => (t.df, t.iiff)) = some (5, false) := by decide

/-- X2. -/
theorem test_cif :
    after (start 0o6252) (fun t => (t.ib, t.iiff, t.ifr)) = some (5, true, 0) := by decide

/-- X3. -/
theorem test_cdfCif :
    after (start 0o6253) (fun t => (t.df, t.ib, t.iiff, t.ifr)) = some (5, 5, true, 0) := by decide

/-- X4. -/
theorem test_rdf :
    after { start 0o6214 with ac := 0o7777, df := 2 } (fun t => t.ac) = some 0o7727 := by decide

/-- X5: IF, not IB. -/
theorem test_rif :
    after { start 0 with ac := 0o7707, ifr := 6, ib := 1, iiff := true, mem := [(0o60200, 0o6224)] }
      (fun t => t.ac) =
        some 0o7767 := by decide

/-- X6. -/
theorem test_rib :
    after { start 0o6234 with ac := 0o7700, isf := 6, dsf := 1 } (fun t => t.ac) = some 0o7761 := by decide

/-- X7. -/
theorem test_rmf :
    after { start 0o6244 with isf := 6, dsf := 1 }
      (fun t => (t.ib, t.df, t.iiff, t.ifr)) =
        some (6, 1, true, 0) := by decide

/-- G32, the permissive treatment of U1: only AC and L are free. -/
theorem test_opr1_undefined_rotate_goes_on :
    after { start 0o7016 with mq := 5, sp1 := 6 }
      (fun t => (t.pc, t.mq, t.sp1, t.fresh)) =
        some (0o201, 5, 6, 2) := by decide

/-- E8, the permissive treatment of D3. -/
theorem test_reserved_goes_on :
    after { start 0o6200 with mq := 5, intgntff := true }
      (fun t => (t.pc, t.mq, t.intgntff, t.running, t.ctrlff)) =
        some (0o201, 5, true, true, false) := by decide

/-- E4: C1 low, C0 high. -/
theorem test_iot_reads_or :
    after { start 0o6031 with ac := 0o1200, intgntff := true, env := { State.reset.env with answers := [⟨false, false, true, 0o55⟩] } }
      (fun t => (t.ac, t.pc, t.intgntff, t.env.bus)) =
        some (0o1255, 0o201, false, [.iot 0o6031 0 0o1200]) := by decide

/-- E6. -/
theorem test_iot_loads_and_skips :
    after { start 0o6031 with ac := 0o1200, env := { State.reset.env with answers := [⟨true, true, true, 0o55⟩] } }
      (fun t => (t.ac, t.pc)) =
        some (0o55, 0o202) := by decide

/-! ### Steps that run no instruction (2.11) -/

/-- T1. -/
theorem test_interrupt_grant :
    after { start 0 with ifr := 3, ib := 3, df := 4, ieff := true, pins := requested }
      (fun t => (t.read ⟨.main, 0, 0⟩, t.pc, t.isf, t.dsf, t.df, t.intgntff)) =
        some (0o200, 1, 3, 4, 0, true) := by decide

/-- U6 stuck: the operand of TAD 0 is never acknowledged. -/
theorem test_operand_wait_keeps_ac :
    after { start 0o1000 with ac := 7, env := { State.reset.env with acks := [.after 3, .never] } }
      (fun t => (t.ac, t.pc, t.waiting, t.env.waited, t.env.acks)) =
        some (7, 0o201, some (.read ⟨.main, 0, 0⟩), 3, []) := by decide

/-- U6 stuck: the store of DCA 0 is never acknowledged. -/
theorem test_dca_wait_stores_nothing :
    after { start 0o3000 with ac := 7, env := { State.reset.env with acks := [.after 0, .never] } }
      (fun t => (t.ac, t.waiting, t.read ⟨.main, 0, 0⟩)) =
        some (7, some (.write ⟨.main, 0, 0⟩ 7), 0) := by decide

/-- R46: a request does not end the wait, and no DMA is granted in it. -/
theorem test_waiting_holds :
    after { start 0o7001 with waiting := some (.read ⟨.main, 0, 0⟩), ieff := true, pins := requested, env := { State.reset.env with moves := [[⟨.cpreq, true⟩]], dma := [[.write ⟨.main, 0, 5⟩ 5]] } }
      (fun t => (t.pc, t.ac, t.btstrp, t.waiting, t.read ⟨.main, 0, 5⟩)) =
        some (0o200, 0, true, some (.read ⟨.main, 0, 0⟩), 0) := by decide

/-- R188: IFETCH is low at a boundary that fetches and while the fetch waits, high while an operand's read waits. -/
theorem test_ifetch_is_low_in_the_fetch_only :
    (start 0).ifetchLow = true ∧ { start 0 with running := false }.ifetchLow = false ∧
      { start 0 with waiting := some (.fetch ⟨.main, 0, 0o200⟩) }.ifetchLow = true ∧
      { start 0 with waiting := some (.read ⟨.main, 0, 0o200⟩) }.ifetchLow = false := by decide

/-- R51: the fetch waits 5 clock periods and completes. -/
theorem test_wait_does_not_preempt_the_fetch :
    after { start 0o7001 with env := { State.reset.env with acks := [.after 5] } }
      (fun t => (t.ac, t.pc, t.env.waited, t.waiting)) =
        some (1, 0o201, 5, none) := by decide

/-- R50: DMA between the fetch and the transaction. -/
theorem test_dma_before_the_device_transaction :
    after { start 0o6031 with env := { State.reset.env with dma := [[], [.write ⟨.main, 0, 0o200⟩ 7, .read ⟨.main, 0, 0o200⟩]], answers := [⟨false, true, true, 0o55⟩] } }
      (fun t => (t.ac, t.ir, t.env.bus)) =
        some (0o55, 0o6031, [.iot 0o6031 0 0, .dmaRead ⟨.main, 0, 0o200⟩ 7]) := by decide

/-- R203, R204: DMA in the halt state. -/
theorem test_halted_machine_grants_dma :
    after { start 0o7001 with running := false, env := { State.reset.env with dma := [[.write ⟨.panel, 7, 0o17⟩ 3]] } }
      (fun t => (t.pc, t.read ⟨.panel, 7, 0o17⟩)) =
        some (0o200, 3) := by decide

/-- R211, U6: RESET ends a bus operation that waits. -/
theorem test_reset_ends_the_wait :
    after { start 0 with ac := 7, waiting := some (.read ⟨.main, 0, 0⟩), env := { State.reset.env with moves := [[⟨.reset, true⟩]] } }
      (fun t => (t.ac, t.waiting)) =
        some (0, none) := by decide

/-- R231: 7 minor cycles, 14 clock periods. -/
theorem test_minor_cycles_of_and :
    after (start 0o177) (fun t => t.clocks) = some 14 := by decide

/-- R231: 5 1/2 minor cycles. -/
theorem test_release_takes_eleven_clock_periods :
    after { State.reset with pins := { State.reset.pins with resetLow := true, dmareqLow := true }, env := { State.reset.env with moves := [[⟨.reset, false⟩]] } }
      (fun t => (t.clocks, t.untimed, t.pins.resetLow)) =
        some (11, 0, false) := by decide

/-- T5. -/
theorem test_panel_request_wins :
    after { start 0 with hltflg := true, ieff := true, pins := requested }
      (fun t => (t.read ⟨.panel, 0, 0⟩, t.pc, t.ctrlff, t.ieff, t.read ⟨.main, 0, 0⟩)) =
        some (0o200, 0o7777, true, true, 0) := by decide

/-- T9: with STRTUP low. -/
theorem test_reset_pulse_into_panel_memory :
    after { start 0 with sp1 := 5, ac := 7, platform := panelStart, env := { State.reset.env with moves := [[⟨.reset, true⟩], [⟨.reset, false⟩]] } }
      (fun t => (t.ac, t.pc, t.pins.resetLow, t.sp1)) =
        some (0, 0o7777, true, 5) := by decide

/-- T9: when RESET goes high again, panel mode is entered at 7777 with 7777 saved. -/
theorem test_reset_enters_panel_mode :
    (fun t : State => ((t.read ⟨.panel, 0, 0⟩, t.pc, t.ctrlff), t.fz, t.pdf, t.pwron))
      (({ start 0 with platform := panelStart }.movePin ⟨.reset, true⟩).movePin ⟨.reset, false⟩) =
        ((0o7777, 0o7777, true), true, false, true) := by decide

/-! ### Witnesses: the hypotheses of the statements can be met, each clause at a boundary of its range -/

/-- The machine about to fetch a word from main 0200, with a panel request pending. -/
def halting : State :=
  { start 0o7000 with hltflg := true }

/-- The machine about to fetch, with a device interrupt it will grant. -/
def interrupting : State :=
  { start 0o7000 with ieff := true, pins := requested }

theorem witness_DecodeOfEncode :
    (Instr.opr1 true true true true 7 true).wellFormed = true ∧ (Instr.iot 0o77 7).wellFormed = true ∧
      Instr.pex.inMode true = true ∧ Instr.gtf.inMode false = true := by decide

theorem witness_EveryTwelveBitWord : (4095 : Nat) < 4096 ∧ 4096 ≤ (4096 : Nat) := by decide

theorem witness_ThreeWords : (0o6001 : Word) ≠ 0o6000 ∧ (0o6001 : Word) ≠ 0o6003 ∧ (0o6001 : Word) ≠ 0o6004 := by decide

theorem witness_EveryStepKeepsTheInvariant : State.reset.Inv ∧ ∃ t, step State.reset = .next t :=
  ⟨⟨by decide, fun _ => rfl, nofun⟩, _, rfl⟩

/-- The machine with the next bus operation never acknowledged. -/
def unanswered (w : Word) : State :=
  { start w with env := { State.reset.env with acks := [.never] } }

theorem witness_EveryInstructionCompletes : State.reset.Acknowledges 4 ∧ ∃ t, exec .nop1 State.reset = .next t :=
  ⟨by decide, _, rfl⟩

/-- The fetch, the store of a panel entry, of an interrupt grant and of a reset release, never acknowledged; a step that
waits; an instruction without a bus operation. -/
theorem witness_AnUnacknowledgedOperation :
    ((unanswered 0).boundary.decision = .fetch ∧ (unanswered 0).boundary.HangsAfter 0 ∧ (unanswered 0).HangsAfter 0) ∧
    ({ unanswered 0 with hltflg := true }.boundary.decision = .panelEntry ∧
      { unanswered 0 with hltflg := true }.boundary.HangsAfter 0) ∧
    ({ unanswered 0 with ieff := true, pins := requested }.boundary.decision = .interruptGrant ∧
      { unanswered 0 with ieff := true, pins := requested }.boundary.HangsAfter 0) ∧
    ({ unanswered 0 with platform := panelStart }.HangsAfter 0 ∧ panelStart.strtupLow = true ∧
      { State.reset.pins with resetLow := true }.resetLow = true) ∧
    (Instr.jmp false true 0o177).usesBus = false ∧ (Instr.opr2 true true true true true false true).usesBus = false ∧
      ∃ t u, step (unanswered 0) = .next t ∧ t.waiting ≠ none ∧ t.env.moves = [] ∧ step t = .next u := by
  refine ⟨by decide, by decide, by decide, by decide, rfl, rfl, _, _, rfl, ?_, rfl, rfl⟩
  decide

/-- The write-back of a pointer at both ends of the autoindex range, and of ISZ's direct and autoindexed operand, never
acknowledged; the operand's operation after a pointer. -/
theorem witness_AnUnacknowledgedOperation_later :
    let late : Nat → State := fun n =>
      { start 0 with env := { State.reset.env with acks := List.replicate n (.after 1) ++ [.never] } }
    (late 1).HangsAfter 1 ∧ ((late 1).instructionAddress false 8).toNat = 8 ∧
      ((late 1).instructionAddress true 15).toNat = 15 ∧
      (∃ ea t, (late 1).effectiveAddress false false 5 = .done ea t ∧ t.HangsAfter 1) ∧
      (∃ ea t, (late 0).effectiveAddress false false 5 = .done ea t ∧ t.HangsAfter 0) ∧
      (∃ ea t, (late 2).effectiveAddress true false 15 = .done ea t ∧ t.HangsAfter 0) ∧
      ∃ ea t, (late 3).effectiveAddress true false 8 = .done ea t ∧ t.HangsAfter 1 := by
  refine ⟨by decide, by decide, by decide, ⟨_, _, rfl, ?_⟩, ⟨_, _, rfl, ?_⟩, ⟨_, _, rfl, ?_⟩, _, _, rfl, ?_⟩ <;> decide

theorem witness_MainModeCannotReachPanelMemory :
    (start 0).ctrlff = false ∧ ∃ t, exec (.dca true false 0o10) (start 0) = .next t :=
  ⟨rfl, _, rfl⟩

theorem witness_MainModeLearnsNothing :
    AgreeButPanelMemory (start 0) (putPanel (start 0) 0 0 7) ∧ (start 0).ctrlff = false ∧ (start 0).env.dma = [] ∧
      (start 0).mem.wf = true ∧ (putPanel (start 0) 0 0 7).mem.wf = true ∧
      ∃ t, exec (.tad true false 0o10) (start 0) = .next t := by
  refine ⟨⟨rfl, fun f o => State.read_write_other (by simp)⟩, rfl, rfl, by decide, by decide, _, rfl⟩

theorem witness_PanelModeIsEntered_by_request :
    halting.ctrlff = false ∧ ∃ t, step halting = .next t ∧ t.ctrlff = true :=
  ⟨rfl, _, rfl, rfl⟩

theorem witness_PanelModeIsEntered_by_reset :
    ∃ t, step { State.reset with
      platform := panelStart, pins := { State.reset.pins with resetLow := true, dmareqLow := true },
      env := { State.reset.env with moves := [[⟨.reset, false⟩]] } } = .next t ∧ t.ctrlff = true :=
  ⟨_, rfl, rfl⟩

theorem witness_PanelModeIsLeft :
    ∃ t, exec (.jmp false false 0) { startPanel 0 with pexff := true } = .next t ∧ t.ctrlff = false ∧
      (Instr.jmp false false 0).isReserved = false :=
  ⟨_, rfl, rfl, rfl⟩

/-- Both branches: a field transfer, and another instruction. -/
theorem witness_InstructionFieldChanges :
    (∃ t, exec .rtn2 (start 0) = .next t ∧ t.waiting = none) ∧ Instr.rtn2.transfersField = true ∧
      (∃ t, exec (.cif 7) (start 0) = .next t) ∧ (Instr.cif 7).transfersField = false :=
  ⟨⟨_, rfl, rfl⟩, rfl, ⟨_, rfl⟩, rfl⟩

theorem witness_RegistersHaveOnlyTheirListedWriters :
    (∃ t, exec .hlt (start 0) = .next t) ∧ Instr.hlt.writesMq = false ∧ Instr.hlt.movesSp1 = false ∧
      Instr.hlt.movesSp2 = false ∧ Instr.hlt.loadsIb = false ∧ Instr.hlt.loadsDf = false ∧ Instr.hlt.writesGt = false :=
  ⟨⟨_, rfl⟩, rfl, rfl, rfl, rfl, rfl, rfl⟩

theorem witness_StepRunsTheDecodedInstruction :
    let s := start 0o7001
    s.boundary.decision = .fetch ∧ s.boundary.Acknowledges 1 ∧
      decodeWord s.boundary.ctrlff (s.boundary.read (s.boundary.instrAddr s.boundary.pc)) = .iac ∧
      ∃ t, exec .iac { s.boundary with
        ol := s.boundary.pc
        ir := s.boundary.read (s.boundary.instrAddr s.boundary.pc)
        pc := s.boundary.pc + 1
        nogrant := false
        env := { s.boundary.env with
          acks := s.boundary.env.acks.drop 1
          waited := s.boundary.env.waited + ((s.boundary.env.acks.take 1).map Ack.wait).sum } } = .next t :=
  ⟨by decide, by decide, by decide, _, rfl⟩

theorem witness_PriorityNetworkOrderAndOutputPins :
    (State.HeldInReset { State.reset with pins := { State.reset.pins with resetLow := true } }) ∧
    { start 0 with running := false }.decision = .hold ∧
      { start 0 with waiting := some (.switchRead 0) }.decision = .hold ∧ { halting with nogrant := true }.decision = .fetch ∧
      { halting with ieff := true, pins := requested }.decision = .panelEntry ∧
      interrupting.decision = .interruptGrant ∧ (start 0).decision = .fetch ∧ halting.Serving ∧ interrupting.Serving := by
  refine ⟨by intro; decide, by decide, by decide, by decide, by decide, by decide, by decide, ?_, ?_⟩ <;> exact ⟨rfl, rfl, rfl, rfl⟩

theorem witness_PanelEntryStep :
    halting.boundary.decision = .panelEntry ∧ halting.boundary.Acknowledges 1 ∧ halting.boundary.mem.wf = true ∧
      halting.platform.kindOf ⟨.panel, 0, 0⟩ = .ram := by decide

theorem witness_InterruptGrantStep :
    interrupting.boundary.decision = .interruptGrant ∧ interrupting.boundary.Acknowledges 1 ∧ interrupting.boundary.mem.wf = true ∧
      interrupting.platform.kindOf ⟨.main, 0, 0⟩ = .ram := by decide

/-- DMA that reads one word; DMA that writes RAM; and each reason to hold: halt, DMAREQ, RESET, a waiting operation. -/
theorem witness_HeldSteps :
    (∃ rest, { start 0 with env := { State.reset.env with dma := [[.read ⟨.main, 0, 1⟩]] } }.env.dma =
      [.read ⟨.main, 0, 1⟩] :: rest) ∧
    ([.write ⟨.main, 0, 1⟩ 2] : List DmaTransfer) = [] ++ .write ⟨.main, 0, 1⟩ 2 :: [] ∧ (start 0).mem.wf = true ∧
      (start 0).platform.kindOf ⟨.main, 0, 1⟩ = .ram ∧
    { start 0 with running := false }.boundary.decision = .hold ∧ { start 0 with running := false }.Quiet ∧
    { start 0 with pins := { State.reset.pins with dmareqLow := true } }.boundary.decision = .hold ∧
    { start 0 with pins := { State.reset.pins with resetLow := true } }.boundary.decision = .hold ∧
    { start 0 with waiting := some (.switchRead 0) }.boundary.decision = .hold ∧ (start 0).env.moves.headD [] = [] :=
  ⟨⟨_, rfl⟩, rfl, by decide, by decide, by decide, ⟨rfl, rfl⟩, by decide, by decide, by decide, rfl⟩

/-- CPREQ high and CPREQ already low, RESET high in both; and RESET low. -/
theorem witness_RequestPins :
    State.reset.pins.resetLow = false ∧ State.reset.pins.cpreqLow = false ∧
      { State.reset with pins := { State.reset.pins with cpreqLow := true } }.pins.cpreqLow = true ∧
      { State.reset with pins := { State.reset.pins with resetLow := true } }.pins.resetLow = true :=
  ⟨rfl, rfl, rfl, rfl⟩

/-- Both levels of STRTUP. -/
theorem witness_ResetPulse :
    (start 0).pins.resetLow = false ∧ (start 0).Acknowledges 1 ∧ (start 0).waiting = none ∧
      (start 0).platform.strtupLow = false ∧ panelStart.strtupLow = true ∧
      (start 0).mem.wf = true ∧ panelStart.kindOf ⟨.panel, 0, 0⟩ = .ram := by decide

theorem witness_AddressSpacesByMode : (start 0).ctrlff = false ∧ (startPanel 0).ctrlff = true := ⟨rfl, rfl⟩

/-- The autoindex range at both ends, from page zero and as the current page, and its neighbours. -/
theorem witness_EffectiveAddressForms :
    ((start 0).instructionAddress false 8).toNat = 8 ∧ ((start 0).instructionAddress true 15).toNat = 15 ∧
      ((start 0).instructionAddress false 7).toNat = 7 ∧ ((start 0).instructionAddress false 16).toNat = 16 ∧
      (start 0).Acknowledges 2 ∧
      (start 0).mem.wf = true ∧ (start 0).platform.kindOf ((start 0).instrAddr 8) = .ram := by decide

/-- Effective addresses found, direct and indirect, with the operand's operation acknowledged; and one left waiting. -/
theorem witness_EffectiveAddressForms_operand :
    (∃ ea t, (start 0).effectiveAddress false true 0 = .done ea t ∧ t.Acknowledges 1) ∧
      (∃ ea t, (start 0).effectiveAddress true false 8 = .done ea t ∧ t.Acknowledges 1) ∧
      ∃ t, (unanswered 0).effectiveAddress true false 7 = .hung t := by
  refine ⟨⟨_, _, rfl, ?_⟩, ⟨_, _, rfl, ?_⟩, _, rfl⟩ <;> decide

/-- Operations acknowledged, memory canonical and RAM under the operand, for AND, TAD, ISZ, DCA, JMS and JMP; the operand
word 7777 and another. -/
theorem witness_memory_reference_results :
    (start 0).Acknowledges ((start 0).pointerAcks true false 8 + 2) ∧ (start 0).mem.wf = true ∧
      (start 0).platform.kindOf (((start 0).operandAddr false false 5).getD ⟨.main, 0, 0⟩) = .ram ∧
      (start 0).platform.kindOf ((start 0).returnSlot false false 5) = .ram ∧
      ((putMain (start 0) 0 5 0o7777).operand false false 5).getD 0 = 0o7777 ∧
      ((start 0).operand false false 5).getD 0 = 0 := by
  decide

/-- An autoindex pointer, at both ends of the range, in RAM, that no DMA writes and no later store hits. -/
theorem witness_PointerAdvanced :
    ∀ a ∈ [(8 : BitVec 7), 15], ∃ b, b ∈ (start 0).pointerStored true false a ∧ (start 0).platform.kindOf b = .ram ∧
      b ∉ [((start 0).operandAddr true false a).getD ⟨.main, 0, 0⟩] ∧ b ∉ [(start 0).returnSlot true false a] ∧
      ¬ (start 0).dmaMayWrite b := by
  intro a ha
  refine ⟨(start 0).instrAddr ((start 0).instructionAddress false a), ?_, ?_, ?_, ?_, by simp [State.dmaMayWrite, start,
    State.reset]⟩ <;> simp only [List.mem_cons, List.not_mem_nil, or_false] at ha <;> rcases ha with rfl | rfl <;> decide

/-- JMS_STORE_AFTER_TRANSFER both ways. -/
theorem witness_JmsStores :
    (start 0).platform.jmsStoreAfterTransfer = true ∧
      { start 0 with platform := { Platform.standard with jmsStoreAfterTransfer := false } }.platform.jmsStoreAfterTransfer =
        false := ⟨rfl, rfl⟩

/-- The rotate codes 0 to 6 meet the hypothesis. -/
theorem witness_Group1Sequence : ∀ rot : Field, rot ≠ 7 ↔ rot.toNat ≤ 6 := by decide

theorem witness_OperateWords :
    (bits3 0o7241 0 = 7 ∧ bit 0o7241 3 = false) ∧ (bits3 0o7412 0 = 7 ∧ bit 0o7412 3 = true ∧ bit 0o7412 11 = false) ∧
      (bits3 0o7403 0 = 7 ∧ bit 0o7403 3 = true ∧ bit 0o7403 11 = true) := by decide

/-- SMA at the boundary of minus, 4000 and 3777: the skip taken, and not. -/
theorem witness_Group2Sequence :
    (start 0).Acknowledges 1 ∧ 0o4000 ≤ ({ start 0 with ac := 0o4000 }.ac).toNat ∧ ¬ 0o4000 ≤ ({ start 0 with ac := 0o3777 }.ac).toNat := by decide

theorem witness_stacks :
    (start 0).Acknowledges 1 ∧ (start 0).mem.wf = true ∧ (start 0).platform.kindOf ((start 0).stackAddr (start 0).sp1) = .ram ∧
      (start 0).platform.kindOf ((start 0).stackAddr (start 0).sp2) = .ram := by decide

theorem witness_PushThenPop :
    (∃ t, exec .pac1 (start 0) = .next t) ∧ (∃ t, exec .ppc1 (start 0) = .next t) ∧ (start 0).mem.wf = true ∧
      (start 0).env.dma = [] ∧ (start 0).Acknowledges 2 ∧
      (start 0).platform.kindOf ((start 0).stackAddr (start 0).sp1) = .ram ∧
      (start 0).pexff = false ∧ (start 0).platform.rtnMainStackOnlyAfterPex = true :=
  ⟨⟨_, rfl⟩, ⟨_, rfl⟩, by decide, rfl, by decide, by decide, rfl, rfl⟩

theorem witness_RtfUndoes : (∃ t, exec .gcf (start 0) = .next t) ∧ ∃ t, exec .gtf (start 0) = .next t :=
  ⟨⟨_, rfl⟩, _, rfl⟩

/-- A scripted device answers in each of the four ways. -/
theorem witness_ExternalIot :
    State.reset.Acknowledges 1 ∧ ∀ c0 c1 : Bool, ({ start 0 with env := { State.reset.env with answers := [⟨true, c0, c1, 0o55⟩] } }.deviceAnswer 0o6031).c0Low = c0 ∧
      ({ start 0 with env := { State.reset.env with answers := [⟨true, c0, c1, 0o55⟩] } }.deviceAnswer 0o6031).c1Low = c1 := by decide

theorem witness_ReservedWords : Instr.reserved6277.isReserved = true ∧ (start 0).ctrlff = false := ⟨rfl, rfl⟩

theorem witness_HaltIsFollowedByPanelEntry :
    let s := start 0o7402
    s.Quiet ∧ s.Serving ∧ s.Acknowledges 2 ∧ s.decision = .fetch ∧ s.ctrlff = false ∧ s.iiff = false ∧ s.mem.wf = true ∧
      s.read (s.instrAddr s.pc) = 0o7402 ∧ s.platform.kindOf ⟨.panel, 0, 0⟩ = .ram :=
  ⟨⟨rfl, rfl⟩, ⟨rfl, rfl, rfl, rfl⟩, by decide, by decide, rfl, rfl, by decide, by decide, by decide⟩

theorem witness_IonDelaysTheGrant :
    let s := { start 0o7000 with pins := requested }
    s.Quiet ∧ s.Serving ∧ s.Acknowledges 1 ∧ ∃ t, exec .ion s = .next t ∧ t.read (t.instrAddr t.pc) = 0o7000 ∧ t.panelGrantable = false ∧
      t.interruptGrantable = true :=
  ⟨⟨rfl, rfl⟩, ⟨rfl, rfl, rfl, rfl⟩, by decide, _, rfl, by decide, by decide, by decide⟩

theorem witness_PanelExitSequence :
    ∃ t u, exec .pex (startPanel 0) = .next t ∧ exec (.jmp true false 0) t = .next u ∧ (startPanel 0).ctrlff = true ∧
      (startPanel 0).fz = true ∧ (startPanel 0).env.dma = [] ∧ (startPanel 0).Acknowledges 1 :=
  ⟨_, _, rfl, rfl, rfl, rfl, rfl, by decide⟩

theorem witness_InterruptReturnSequence :
    ∃ t u v, exec .rmf (start 0).interruptGrant = .next t ∧ exec .ion t = .next u ∧ exec (.jmp true false 0) u = .next v ∧
      (start 0).ctrlff = false ∧ (start 0).iiff = false ∧ (start 0).ib = (start 0).ifr ∧ (start 0).env.dma = [] ∧
      (start 0).Acknowledges 2 ∧ (start 0).mem.wf = true ∧ (start 0).platform.kindOf ⟨.main, 0, 0⟩ = .ram :=
  ⟨_, _, _, rfl, rfl, rfl, rfl, rfl, rfl, rfl, by decide, by decide, by decide⟩

/-- The shortest and the longest stated counts. -/
theorem witness_StatedMinorCycles :
    minorCycles (.jmp false false 0) (start 0) (start 0) = some 4 ∧
      minorCycles (.isz true false 8) (start 0) { start 0 with pc := 0 } = some 16 ∧
      minorCycles .ppc1 (start 0) (start 0) = none := by decide

end Sys2Proof.Tests
end

/-! What an instruction may change, said once for all 118 constructors (`exec_frame`), what the four field transferring
instructions do to the mode (`exec_transfers`), and the proofs of the statements about the state that rest on the two. -/

namespace Sys2Proof.Machine

/-! ### The frame of an instruction -/

/-- `t` differs from `s` only in registers and flags that many instructions write, in memory and in the model's records. -/
def State.WorkingOnly (s t : State) : Prop :=
  t = { s with
    ac := t.ac, l := t.l, pc := t.pc, ieff := t.ieff, pdf := t.pdf, pwron := t.pwron, pnltrp := t.pnltrp,
    hltflg := t.hltflg, btstrp := t.btstrp, pexff := t.pexff, intgntff := t.intgntff, nogrant := t.nogrant,
    waiting := t.waiting, mem := t.mem, env := t.env, fresh := t.fresh }

/-- What `i` may do in going from `s` to `t`: each register of R19 to R24 and R32 changes only in its listed writers, IF
and the mode only in a field transfer (the mode in a reserved word too), main mode is kept, and so are the agreement of
the fields and the canonical form of memory. -/
structure State.ExecFrame (i : Instr) (s t : State) : Prop where
  mq : i.writesMq = false → t.mq = s.mq
  sp1 : i.movesSp1 = false → t.sp1 = s.sp1
  sp2 : i.movesSp2 = false → t.sp2 = s.sp2
  ib : i.loadsIb = false → t.ib = s.ib
  df : i.loadsDf = false → t.df = s.df
  gt : i.writesGt = false → t.gt = s.gt
  isf : t.isf = s.isf
  dsf : t.dsf = s.dsf
  running : t.running = s.running
  pins : t.pins = s.pins
  platform : t.platform = s.platform
  ifr : i.transfersField = false → t.ifr = s.ifr
  mode : i.transfersField = false → i.isReserved = false → t.ctrlff = s.ctrlff
  main : s.ctrlff = false → t.ctrlff = false
  fields : s.FieldsAgree → t.FieldsAgree
  memory : s.mem.wf = true → t.mem.wf = true

theorem State.ExecFrame.refl (i : Instr) (s : State) : State.ExecFrame i s s where
  mq _ := rfl
  sp1 _ := rfl
  sp2 _ := rfl
  ib _ := rfl
  df _ := rfl
  gt _ := rfl
  isf := rfl
  dsf := rfl
  running := rfl
  pins := rfl
  platform := rfl
  ifr _ := rfl
  mode _ _ := rfl
  main := id
  fields := id
  memory := id

theorem State.ExecFrame.trans {i : Instr} {s t u : State} (h : State.ExecFrame i s t) (h' : State.ExecFrame i t u) :
    State.ExecFrame i s u where
  mq c := (h'.mq c).trans (h.mq c)
  sp1 c := (h'.sp1 c).trans (h.sp1 c)
  sp2 c := (h'.sp2 c).trans (h.sp2 c)
  ib c := (h'.ib c).trans (h.ib c)
  df c := (h'.df c).trans (h.df c)
  gt c := (h'.gt c).trans (h.gt c)
  isf := h'.isf.trans h.isf
  dsf := h'.dsf.trans h.dsf
  running := h'.running.trans h.running
  pins := h'.pins.trans h.pins
  platform := h'.platform.trans h.platform
  ifr c := (h'.ifr c).trans (h.ifr c)
  mode c r := (h'.mode c r).trans (h.mode c r)
  main := h'.main ∘ h.main
  fields := h'.fields ∘ h.fields
  memory := h'.memory ∘ h.memory

/-- A change of working registers is within every instruction's frame. -/
theorem State.WorkingOnly.execFrame {i : Instr} {s t : State} (h : s.WorkingOnly t)
    (hw : s.mem.wf = true → t.mem.wf = true) : State.ExecFrame i s t := by
  unfold State.WorkingOnly at h
  rw [h]
  exact { State.ExecFrame.refl i s with memory := h ▸ hw }

/-- A change of working registers that leaves memory alone. -/
theorem State.ExecFrame.working {i : Instr} {s t : State} (h : s.WorkingOnly t) (hm : t.mem = s.mem) :
    State.ExecFrame i s t :=
  h.execFrame fun hw => hm ▸ hw

theorem State.BusOnly.workingOnly {s t : State} (h : s.BusOnly t) : s.WorkingOnly t := by
  unfold State.WorkingOnly
  rw [h.eq]

theorem State.BusOnly.execFrame {i : Instr} {s t : State} (h : s.BusOnly t) (hw : s.mem.wf = true → t.mem.wf = true) :
    State.ExecFrame i s t :=
  h.workingOnly.execFrame hw

/-- The rest of an instruction after its bus operations. -/
theorem Bus.finish_execFrame {α : Type} {i : Instr} {s : State} {b : Bus α} {f : α → State → State}
    (hb : State.ExecFrame i s b.state) (hf : ∀ v t, State.ExecFrame i t (f v t)) :
    State.ExecFrame i s (b.finish f) := by
  cases b
  · exact hb.trans (hf _ _)
  · exact hb

/-- Bus operations after bus operations. -/
theorem Bus.andThen_execFrame {α β : Type} {i : Instr} {s : State} {b : Bus α} {f : α → State → Bus β}
    (hb : State.ExecFrame i s b.state) (hf : ∀ v t, State.ExecFrame i t (f v t).state) :
    State.ExecFrame i s (b.andThen f).state := by
  cases b
  · exact hb.trans (hf _ _)
  · exact hb

/-! ### The frame of each shared operation -/

theorem State.busRead_execFrame (i : Instr) (s : State) (a : Addr) : State.ExecFrame i s (s.busRead a).state :=
  (s.busRead_busOnly a).execFrame (State.busRead_wf a)

theorem State.busWrite_execFrame (i : Instr) (s : State) (a : Addr) (v : Word) :
    State.ExecFrame i s (s.busWrite a v).state :=
  (s.busWrite_busOnly a v).execFrame (State.busWrite_wf a v)

theorem State.busIncrement_execFrame (i : Instr) (s : State) (a : Addr) :
    State.ExecFrame i s (s.busIncrement a).state :=
  (s.busIncrement_busOnly a).execFrame (State.busIncrement_wf a)

theorem State.effectiveAddress_execFrame (i : Instr) (s : State) (ind p : Bool) (a : BitVec 7) :
    State.ExecFrame i s (s.effectiveAddress ind p a).state :=
  (s.effectiveAddress_busOnly ind p a).execFrame (State.effectiveAddress_wf ind p a)

theorem State.operandAddr_execFrame (i : Instr) (s : State) (ind p : Bool) (a : BitVec 7) :
    State.ExecFrame i s (s.operandAddr ind p a).state := by
  rw [State.operandAddr_state]
  exact s.effectiveAddress_execFrame i ind p a

theorem State.operand_execFrame (i : Instr) (s : State) (ind p : Bool) (a : BitVec 7) :
    State.ExecFrame i s (s.operand ind p a).state :=
  Bus.andThen_execFrame (s.operandAddr_execFrame i ind p a) fun b t => t.busRead_execFrame i b

/-- The memory of a device or switch-register transaction is that after its gap, acknowledged or not. -/
theorem State.transact_mem {α : Type} {s : State} {op : BusOp} {f : State → α × State}
    (hf : ∀ t, (f t).2.mem = t.mem) : (s.transact op f).state.mem = s.mem := by
  rcases s.transact_cases op f with h | h <;> rw [h]
  · exact hf s.takeAck
  · rfl

theorem State.deviceBus_execFrame (i : Instr) (s : State) (w : Word) : State.ExecFrame i s (s.deviceBus w).state := by
  refine State.WorkingOnly.execFrame ?_ fun hw => ?_
  · rw [s.deviceBus_frame w]
    rfl
  · rw [State.deviceBus, State.transact_mem fun _ => rfl]
    exact State.dmaGap_wf hw

theorem State.switchWrite_execFrame (i : Instr) (s : State) : State.ExecFrame i s s.switchWrite.state := by
  refine s.switchWrite_busOnly.execFrame fun hw => ?_
  rw [State.switchWrite, State.transact_mem fun _ => rfl]
  exact State.dmaGap_wf hw

theorem State.orSwitch_execFrame (i : Instr) (s : State) : State.ExecFrame i s s.orSwitch.state := by
  refine State.WorkingOnly.execFrame ?_ fun hw => ?_
  · rw [s.orSwitch_frame]
    rfl
  · rcases s.orSwitch_cases with h | h <;> rw [h] <;> exact State.dmaGap_wf hw

theorem State.group1_execFrame (i : Instr) (s : State) (cla cll cma cml : Bool) (rot : Field) (iac : Bool) :
    State.ExecFrame i s (s.group1 cla cll cma cml rot iac) := by
  refine State.WorkingOnly.execFrame ?_ fun hw => by simpa using hw
  rw [s.group1_acLinkOnly cla cll cma cml rot iac]
  rfl

theorem State.doIf_execFrame {i : Instr} {s : State} {f : State → State} (c : Bool) (h : State.ExecFrame i s (f s)) :
    State.ExecFrame i s (s.doIf c f) := by
  cases c
  · exact .working rfl rfl
  · exact h

theorem State.group2_execFrame (i : Instr) (s : State) (cla sma sza snl sense osr hlt : Bool) :
    State.ExecFrame i s (s.group2 cla sma sza snl sense osr hlt) := by
  have hskip : State.ExecFrame i s (s.skipIf (s.skipTest sma sza snl sense)) := .working rfl rfl
  have hcla := hskip.trans (State.doIf_execFrame (f := State.clearAc) cla (.working rfl rfl))
  refine Bus.finish_execFrame ?_ fun _ t => State.doIf_execFrame hlt (.working rfl rfl)
  cases osr
  · exact hcla
  · exact hcla.trans (State.orSwitch_execFrame i _)

/-! ### The frame of each listed write -/

theorem State.setMq_execFrame {i : Instr} (hi : i.writesMq = true) (s : State) (v : Word) :
    State.ExecFrame i s { s with mq := v } :=
  { State.ExecFrame.refl i s with mq := by simp [hi] }

theorem State.setSp1_execFrame {i : Instr} (hi : i.movesSp1 = true) (s : State) (v : Word) :
    State.ExecFrame i s { s with sp1 := v } :=
  { State.ExecFrame.refl i s with sp1 := by simp [hi] }

theorem State.setSp2_execFrame {i : Instr} (hi : i.movesSp2 = true) (s : State) (v : Word) :
    State.ExecFrame i s { s with sp2 := v } :=
  { State.ExecFrame.refl i s with sp2 := by simp [hi] }

theorem State.setDf_execFrame {i : Instr} (hi : i.loadsDf = true) (s : State) (x : Field) :
    State.ExecFrame i s { s with df := x } :=
  { State.ExecFrame.refl i s with df := by simp [hi] }

/-- Loading IB sets the inhibit, so IB may differ from IF (R21). -/
theorem State.setIb_execFrame {i : Instr} (hi : i.loadsIb = true) (s : State) (x : Field) :
    State.ExecFrame i s { s with ib := x, iiff := true } :=
  { State.ExecFrame.refl i s with ib := by simp [hi], fields := fun _ => nofun }

theorem State.setGt_execFrame {i : Instr} (hi : i.writesGt = true) (s : State) (c : Bool) :
    State.ExecFrame i s { s with gt := c } :=
  { State.ExecFrame.refl i s with gt := by simp [hi] }

theorem State.push1_execFrame {i : Instr} (hi : i.movesSp1 = true) (s : State) (v : Word) :
    State.ExecFrame i s (s.push1 v) :=
  Bus.finish_execFrame (s.busWrite_execFrame i _ v) fun _ t => t.setSp1_execFrame hi _

theorem State.push2_execFrame {i : Instr} (hi : i.movesSp2 = true) (s : State) (v : Word) :
    State.ExecFrame i s (s.push2 v) :=
  Bus.finish_execFrame (s.busWrite_execFrame i _ v) fun _ t => t.setSp2_execFrame hi _

/-- The field transfer makes the fields agree and never enters panel mode (R21, R63). -/
theorem State.fieldTransfer_execFrame {i : Instr} (hi : i.transfersField = true) (s : State) :
    State.ExecFrame i s s.fieldTransfer :=
  { State.ExecFrame.refl i s with
    ifr := by simp [hi], mode := by simp [hi], main := fun h => by simp [h], fields := fun _ _ => rfl }

theorem Instr.writesGt_of_isReserved {i : Instr} (h : i.isReserved = true) : i.writesGt = true := by
  unfold Instr.writesGt
  split
  · rfl
  · rfl
  · exact h

/-- A reserved word keeps main mode, and sets IIFF where the fields differ (R184; log entry 12). -/
theorem State.reservedEffect_execFrame {i : Instr} (hi : i.isReserved = true) (s : State) :
    State.ExecFrame i s s.reservedEffect :=
  { State.ExecFrame.refl i s with
    gt := by simp [Instr.writesGt_of_isReserved hi]
    mode := by simp [hi]
    main := fun h => by simp [h]
    fields := fun _ h => by simp_all }

/-! ### The frame of every instruction -/

/-- What holds of the state an outcome gives holds of every next state that the outcome is. -/
theorem of_next {P : State → Prop} {t u : State} (hu : P u) (h : (.next u : Host.Outcome State Fault Refusal) = .next t) :
    P t := by
  obtain rfl : u = t := by simpa using h
  exact hu

/-- A group 3 word changes AC, and MQ where bit MQL is set (R125). -/
theorem State.group3_execFrame {i : Instr} {mql : Bool} (hi : i.writesMq = mql) (s : State) (cla mqa : Bool) :
    State.ExecFrame i s (s.group3 cla mqa mql) := by
  cases mql
  · exact .working rfl rfl
  · exact (s.setMq_execFrame hi _).trans (.working rfl rfl)

/-- Every instruction stays within its frame. -/
theorem exec_frame {i : Instr} {s t : State} : exec i s = .next t → State.ExecFrame i s t := by
  cases i with
  | and ind p a => exact of_next (Bus.finish_execFrame (s.operand_execFrame _ ind p a) fun _ _ => .working rfl rfl)
  | tad ind p a => exact of_next (Bus.finish_execFrame (s.operand_execFrame _ ind p a) fun _ _ => .working rfl rfl)
  | isz ind p a =>
    exact of_next (Bus.finish_execFrame
      (Bus.andThen_execFrame (s.operandAddr_execFrame _ ind p a) fun b t => t.busIncrement_execFrame _ b)
      fun _ _ => .working rfl rfl)
  | dca ind p a =>
    exact of_next (Bus.finish_execFrame
      (Bus.andThen_execFrame (s.operandAddr_execFrame _ ind p a) fun b t => t.busWrite_execFrame _ b _)
      fun _ _ => .working rfl rfl)
  | jms ind p a =>
    refine of_next (Bus.finish_execFrame (s.effectiveAddress_execFrame _ ind p a) fun ea t => ?_)
    split
    · exact (t.fieldTransfer_execFrame rfl).trans
        (Bus.finish_execFrame (State.busWrite_execFrame _ _ _ _) fun _ _ => .working rfl rfl)
    · exact Bus.finish_execFrame (State.busWrite_execFrame _ _ _ _) fun _ u =>
        (u.fieldTransfer_execFrame rfl).trans (.working rfl rfl)
  | jmp ind p a =>
    exact of_next (Bus.finish_execFrame (s.effectiveAddress_execFrame _ ind p a) fun _ t =>
      (t.fieldTransfer_execFrame rfl).trans (.working rfl rfl))
  | opr1 cla cll cma cml rot iac => exact of_next (s.group1_execFrame _ cla cll cma cml rot iac)
  | opr2 cla sma sza snl sense osr hlt => exact of_next (s.group2_execFrame _ cla sma sza snl sense osr hlt)
  | osr => exact of_next (s.orSwitch_execFrame _)
  | las => exact of_next ((State.ExecFrame.working (t := s.clearAc) rfl rfl).trans (s.clearAc.orSwitch_execFrame _))
  | opr3 cla mqa u6 mql u8to10 => exact of_next ((s.group3_execFrame rfl cla mqa).trans (.working rfl rfl))
  | mql | swp | cam | claSwp => exact of_next ((s.setMq_execFrame rfl _).trans (.working rfl rfl))
  | ppc1 | pac1 => exact of_next (s.push1_execFrame rfl _)
  | ppc2 | pac2 => exact of_next (s.push2_execFrame rfl _)
  | rtn1 =>
    exact of_next (((s.setSp1_execFrame rfl _).trans (State.fieldTransfer_execFrame rfl _)).trans
      (Bus.finish_execFrame (State.busRead_execFrame _ _ _) fun _ _ => .working rfl rfl))
  | rtn2 =>
    exact of_next (((s.setSp2_execFrame rfl _).trans (State.fieldTransfer_execFrame rfl _)).trans
      (Bus.finish_execFrame (State.busRead_execFrame _ _ _) fun _ _ => .working rfl rfl))
  | pop1 =>
    exact of_next ((s.setSp1_execFrame rfl _).trans
      (Bus.finish_execFrame (State.busRead_execFrame _ _ _) fun _ _ => .working rfl rfl))
  | pop2 =>
    exact of_next ((s.setSp2_execFrame rfl _).trans
      (Bus.finish_execFrame (State.busRead_execFrame _ _ _) fun _ _ => .working rfl rfl))
  | lsp1 => exact of_next ((s.setSp1_execFrame rfl s.ac).trans (.working rfl rfl))
  | lsp2 => exact of_next ((s.setSp2_execFrame rfl s.ac).trans (.working rfl rfl))
  | wsr => exact of_next (Bus.finish_execFrame (s.switchWrite_execFrame _) fun _ _ => .working rfl rfl)
  | iot device op => exact of_next (Bus.finish_execFrame (s.deviceBus_execFrame _ _) fun _ _ => .working rfl rfl)
  | caf => exact of_next ((s.setGt_execFrame rfl _).trans (.working rfl rfl))
  | rtf =>
    exact of_next ((((s.setGt_execFrame rfl (bit s.ac 1)).trans (State.setIb_execFrame rfl _ (bits3 s.ac 6))).trans
      (State.setDf_execFrame rfl _ (bits3 s.ac 9))).trans (.working rfl rfl))
  | cdf x => exact of_next (s.setDf_execFrame rfl x)
  | cif x => exact of_next (s.setIb_execFrame rfl x)
  | cdfCif x => exact of_next ((s.setDf_execFrame rfl x).trans (State.setIb_execFrame rfl _ x))
  | rmf => exact of_next ((s.setDf_execFrame rfl s.dsf).trans (State.setIb_execFrame rfl _ s.isf))
  | reserved6200 | reserved6210 | reserved6220 | reserved6230 | reserved6240 | reserved6250 | reserved6260
  | reserved6270 | reserved6204 | reserved6254 | reserved6264 | reserved6274 | reserved6247 | reserved6257
  | reserved6267 | reserved6277 => exact of_next (s.reservedEffect_execFrame rfl)
  | _ => exact of_next (.working rfl rfl)

/-! ### The field transfer -/

/-- `t` holds the fields and the mode that the field transfer gives from `s` (R63). -/
structure State.Transferred (s t : State) : Prop where
  ifr : t.ifr = s.ib
  ib : t.ib = s.ib
  fz : t.fz = (s.fz && !s.iiff)
  iiff : t.iiff = false
  ctrlff : t.ctrlff = (s.ctrlff && !s.pexff)
  nogrant : t.nogrant = (s.nogrant || s.pexff)
  pexff : t.pexff = false

/-- How a field transferring instruction can end: with the transfer made, or in a bus operation that comes before it, in
the mode it began in. -/
inductive State.TransferOrWait (s t : State) : Prop
  | transferred (h : s.Transferred t)
  | stuck (hw : t.waiting ≠ none) (hm : t.ctrlff = s.ctrlff)

/-- Bus operations before the field transfer do not matter to it. -/
theorem State.Transferred.of_busOnly {s t u : State} (h : s.BusOnly t) (hu : t.Transferred u) : s.Transferred u where
  ifr := hu.ifr.trans h.ib
  ib := hu.ib.trans h.ib
  fz := by rw [hu.fz, h.fz, h.iiff]
  iiff := hu.iiff
  ctrlff := by rw [hu.ctrlff, h.ctrlff, h.pexff]
  nogrant := by rw [hu.nogrant, h.nogrant, h.pexff]
  pexff := hu.pexff

/-- Nor do those after it. -/
theorem State.Transferred.then_busOnly {s t u : State} (h : s.Transferred t) (hu : t.BusOnly u) : s.Transferred u where
  ifr := hu.ifr.trans h.ifr
  ib := hu.ib.trans h.ib
  fz := hu.fz.trans h.fz
  iiff := hu.iiff.trans h.iiff
  ctrlff := hu.ctrlff.trans h.ctrlff
  nogrant := hu.nogrant.trans h.nogrant
  pexff := hu.pexff.trans h.pexff

theorem State.Transferred.setPc {s t : State} (h : s.Transferred t) (v : Word) : s.Transferred { t with pc := v } :=
  ⟨h.ifr, h.ib, h.fz, h.iiff, h.ctrlff, h.nogrant, h.pexff⟩

theorem State.fieldTransfer_transferred (s : State) : s.Transferred s.fieldTransfer :=
  ⟨rfl, rfl, rfl, rfl, rfl, rfl, rfl⟩

/-! ### An operation that is not acknowledged is waited in -/

theorem State.transact_hung_waiting {α : Type} {s t : State} {op : BusOp} {f : State → α × State}
    (h : s.transact op f = .hung t) : t.waiting ≠ none := by
  rcases s.transact_cases op f with e | e <;> rw [e] at h
  · cases h
  · obtain rfl := Bus.hung.inj h
    exact nofun

theorem State.busWrite_hung_waiting {s t : State} {a : Addr} {v : Word} (h : s.busWrite a v = .hung t) :
    t.waiting ≠ none := by
  unfold State.busWrite State.writeOp at h
  exact State.transact_hung_waiting h

theorem State.busIncrement_hung_waiting {s t : State} {a : Addr} (h : s.busIncrement a = .hung t) : t.waiting ≠ none := by
  unfold State.busIncrement at h
  cases hr : s.busRead a with
  | hung u =>
    rw [hr] at h
    obtain rfl := Bus.hung.inj h
    exact State.transact_hung_waiting hr
  | done v u =>
    rw [hr, Bus.andThen_done] at h
    cases hw : u.writeOp a (v + 1) with
    | hung x =>
      rw [hw] at h
      obtain rfl := Bus.hung.inj h
      exact State.transact_hung_waiting hw
    | done _ x =>
      rw [hw] at h
      cases h

theorem State.effectiveAddress_hung_waiting {s t : State} {i p : Bool} {a : BitVec 7}
    (h : s.effectiveAddress i p a = .hung t) : t.waiting ≠ none := by
  rcases s.effectiveAddress_cases i p a with ⟨_, e⟩ | ⟨_, _, e⟩ | ⟨_, _, e⟩ <;> rw [e] at h
  · cases h
  · exact State.busIncrement_hung_waiting h
  · exact State.transact_hung_waiting h

/-- Finding the effective address waits before the field transfer, or the rest of the instruction decides. -/
theorem State.effectiveAddress_finish_transfers {s : State} {i p : Bool} {a : BitVec 7} {f : Word → State → State}
    (hf : ∀ ea t, s.BusOnly t → s.TransferOrWait (f ea t)) :
    s.TransferOrWait ((s.effectiveAddress i p a).finish f) := by
  have hb := s.effectiveAddress_busOnly i p a
  cases h : s.effectiveAddress i p a with
  | done ea t =>
    rw [h] at hb
    exact hf ea t hb
  | hung t =>
    rw [h] at hb
    exact .stuck (State.effectiveAddress_hung_waiting h) hb.ctrlff

/-- A return pops PC after its field transfer, whether or not the pop is acknowledged. -/
theorem State.Transferred.busRead_pc {s t : State} (h : s.Transferred t) (a : Addr) :
    s.Transferred ((t.busRead a).finish fun v u => { u with pc := v }) :=
  Bus.finish_frame (t.busRead_busOnly a) (fun _ hu => h.then_busOnly hu) fun v _ hu => (h.then_busOnly hu).setPc v

/-- The order of JMS that stores after the transfer. -/
theorem State.Transferred.busWrite_pc {s t : State} (h : s.Transferred t) (a : Addr) (v pc : Word) :
    s.Transferred ((t.busWrite a v).finish fun _ u => { u with pc := pc }) :=
  Bus.finish_frame (t.busWrite_busOnly a v) (fun _ hu => h.then_busOnly hu) fun _ _ hu => (h.then_busOnly hu).setPc pc

/-- The order of JMS that stores before the transfer. -/
theorem State.BusOnly.busWrite_transfers {s t : State} (h : s.BusOnly t) (a : Addr) (v pc : Word) :
    s.TransferOrWait ((t.busWrite a v).finish fun _ u => { u.fieldTransfer with pc := pc }) := by
  have hb := h.trans (t.busWrite_busOnly a v)
  cases hw : t.busWrite a v with
  | done _ u =>
    rw [hw] at hb
    exact .transferred ((u.fieldTransfer_transferred.of_busOnly hb).setPc pc)
  | hung u =>
    rw [hw] at hb
    exact .stuck (State.busWrite_hung_waiting hw) hb.ctrlff

/-- JMP, JMS, RTN1 and RTN2 make the field transfer, unless they are left waiting before it (R63, R71, R72, R140). -/
theorem exec_transfers {i : Instr} {s t : State} (hi : i.transfersField = true) :
    exec i s = .next t → s.TransferOrWait t := by
  cases i with
  | jmp ind p a =>
    exact of_next (State.effectiveAddress_finish_transfers fun ea t ht =>
      .transferred ((t.fieldTransfer_transferred.of_busOnly ht).setPc ea))
  | jms ind p a =>
    refine of_next (State.effectiveAddress_finish_transfers fun ea t ht => ?_)
    split
    · exact .transferred ((t.fieldTransfer_transferred.of_busOnly ht).busWrite_pc _ _ _)
    · exact ht.busWrite_transfers _ _ _
  | rtn1 =>
    have ht : s.Transferred s.raiseSp1.fieldTransfer := ⟨rfl, rfl, rfl, rfl, rfl, rfl, rfl⟩
    exact of_next (.transferred (ht.busRead_pc _))
  | rtn2 =>
    have ht : s.Transferred s.raiseSp2.fieldTransfer := ⟨rfl, rfl, rfl, rfl, rfl, rfl, rfl⟩
    exact of_next (.transferred (ht.busRead_pc _))
  | _ => cases hi

/-! ### The writers, IF and the way out of panel mode -/

/-- Settles O14: the frame of every instruction has these clauses. -/
theorem registersHaveOnlyTheirListedWriters : Obligations.RegistersHaveOnlyTheirListedWriters := by
  intro i s t h
  have f := exec_frame h
  exact ⟨f.mq, f.sp1, f.sp2, f.ib, f.df, f.gt, f.isf, f.dsf, f.running, f.pins, f.platform⟩

/-- Settles O13: a transferring instruction that is not left waiting has made the transfer; every other one keeps IF. -/
theorem instructionFieldChangesOnlyByFieldTransfer : Obligations.InstructionFieldChangesOnlyByFieldTransfer := by
  intro i s t h
  split
  case isTrue hi =>
    intro hw
    obtain ht | hn := exec_transfers hi h
    · exact ⟨ht.ifr, ht.ib, ht.iiff, ht.fz⟩
    · exact absurd hw hn
  case isFalse hi => exact (exec_frame h).ifr (by simpa using hi)

/-- Settles O12: outside the reserved words only a transferring instruction changes the mode, and the transfer does so only
where a PEX is pending. -/
theorem panelModeIsLeftOnlyByAPendingExit : Obligations.PanelModeIsLeftOnlyByAPendingExit := by
  intro i s t hs h ht hr
  cases hi : i.transfersField with
  | false =>
    have hm := (exec_frame h).mode hi hr
    simp [hs, ht] at hm
  | true =>
    obtain hx | ⟨_, hm⟩ := exec_transfers hi h
    · have hp : s.pexff = true := by simpa [hs, ht] using hx.ctrlff
      exact ⟨rfl, hp, hx.pexff, by simp [hx.nogrant, hp]⟩
    · simp [hs, ht] at hm

/-! ### The sequences of the step, acknowledged or not -/

theorem State.acknowledges_or_hangs (s : State) : s.Acknowledges 1 ∨ s.HangsAfter 0 := by
  unfold State.HangsAfter State.Acknowledges
  cases s.env.acks with
  | nil => simp
  | cons k _ => cases k <;> simp

/-- A panel entry sets the mode, and changes PC, memory, the environment and the waiting operation beside it (R197). -/
theorem State.panelEntry_frame (s : State) : s.panelEntry = { s with
    ctrlff := true, fz := true, pdf := false, pc := s.panelEntry.pc, mem := s.panelEntry.mem,
    env := s.panelEntry.env, waiting := s.panelEntry.waiting } := by
  obtain h | h := s.acknowledges_or_hangs
  · rw [State.panelEntry_done h]
    rfl
  · rw [State.panelEntry_held h]
    rfl

/-- A fetch changes OL, IR, PC, the grant delay, the environment and the waiting operation (R188). -/
theorem State.fetch_frame (s : State) : s.fetch.state = { s with
    ol := s.fetch.state.ol, ir := s.fetch.state.ir, pc := s.fetch.state.pc, nogrant := s.fetch.state.nogrant,
    env := s.fetch.state.env, waiting := s.fetch.state.waiting } := by
  obtain h | h := s.acknowledges_or_hangs
  · rw [State.fetch_done h]
    rfl
  · rw [State.fetch_held h]
    rfl

@[simp] theorem State.interruptGrant_pins (s : State) : s.interruptGrant.pins = s.pins := by
  obtain h | h := s.acknowledges_or_hangs
  · rw [State.interruptGrant_done h]
    rfl
  · rw [State.interruptGrant_held h]
    rfl

@[simp] theorem State.interruptGrant_ctrlff (s : State) : s.interruptGrant.ctrlff = s.ctrlff := by
  obtain h | h := s.acknowledges_or_hangs
  · rw [State.interruptGrant_done h]
    rfl
  · rw [State.interruptGrant_held h]
    rfl

/-- An interrupt grant clears both fields, or, not acknowledged, neither (R194). -/
theorem State.FieldsAgree.interruptGrant {s : State} (hf : s.FieldsAgree) : s.interruptGrant.FieldsAgree := by
  obtain h | h := s.acknowledges_or_hangs
  · rw [State.interruptGrant_done h]
    exact fun _ => rfl
  · rw [State.interruptGrant_held h]
    exact hf

theorem State.FieldsAgree.panelEntry {s : State} (hf : s.FieldsAgree) : s.panelEntry.FieldsAgree := by
  rw [s.panelEntry_frame]
  exact hf

/-! ### The invariant at the boundary -/

/-- Settles O5: memory is empty, both fields are 0, and RESET is high again. -/
theorem resetMeetsTheInvariant : Obligations.ResetMeetsTheInvariant :=
  ⟨rfl, fun _ => rfl, nofun⟩

/-- Outside reset only memory and the fields are constrained. -/
theorem State.Inv.of_resetHigh {s : State} (hr : s.pins.resetLow = false) (hm : s.mem.wf = true)
    (hf : s.FieldsAgree) : s.Inv :=
  ⟨hm, hf, fun h => absurd (hr.symm.trans h) (by decide)⟩

theorem State.Inv.spend {s : State} (h : s.Inv) (n : Option Nat) : (s.spend n).Inv := by
  cases n <;> exact ⟨h.memory, h.fields, h.reset⟩

theorem State.Inv.latchTemp {s : State} (h : s.Inv) : s.latchTemp.Inv :=
  ⟨h.memory, h.fields, h.reset⟩

theorem State.Inv.dmaGap {s : State} (h : s.Inv) : s.dmaGap.Inv :=
  ⟨State.dmaGap_wf h.memory, h.fields, h.reset⟩

/-- While RESET is low a change of another pin changes the pins only (R30, R31, D17). -/
theorem State.movePin_of_resetLow {s : State} {m : PinMove} (hm : m.pin ≠ .reset) (hr : s.pins.resetLow = true) :
    s.movePin m = { s with pins := (s.movePin m).pins } := by
  obtain ⟨pin, low⟩ := m
  cases pin with
  | reset => exact absurd rfl hm
  | dmareq | intreq => rfl
  | runHlt | cpreq => simp [State.movePin, hr]

/-- RESET going low gives every register and flag its reset value and ends a waiting bus operation (R212). -/
theorem State.Inv.resetFalls {s : State} (h : s.Inv) :
    State.Inv { s.cutShort.resetHold with pins := { s.pins with resetLow := true } } where
  memory := State.cutShort_wf h.memory
  fields := fun _ => rfl
  reset := fun _ => by simp

theorem State.FieldsAgree.startUp {s : State} (h : s.FieldsAgree) : s.startUp.FieldsAgree := by
  unfold State.startUp
  split
  · exact State.FieldsAgree.panelEntry h
  · exact h

theorem State.Inv.release {s : State} (h : s.Inv) : s.release.Inv :=
  .of_resetHigh rfl (State.release_wf h.memory)
    (State.FieldsAgree.startUp (s := { s with clocks := s.clocks + 11 }) h.fields)

theorem State.Inv.movePin {s : State} (h : s.Inv) (m : PinMove) : (s.movePin m).Inv := by
  by_cases hm : m.pin = .reset
  · obtain ⟨pin, low⟩ := m
    obtain rfl : pin = .reset := hm
    simp only [State.movePin]
    split
    · split
      · exact h
      · exact h.resetFalls
    · split
      · exact h.release
      · exact h
  · obtain ⟨hframe, hlow⟩ := State.movePin_frame (s := s) hm
    refine ⟨State.movePin_wf m h.memory, ?_, fun hr => ?_⟩
    · rw [hframe]
      exact h.fields
    · have hr' := hlow.symm.trans hr
      rw [State.movePin_of_resetLow hm hr']
      exact h.reset hr'

theorem State.Inv.movePin_foldl {s : State} (h : s.Inv) (ms : List PinMove) : (ms.foldl State.movePin s).Inv := by
  induction ms generalizing s with
  | nil => exact h
  | cons m rest ih => exact ih (h.movePin m)

theorem State.Inv.movePins {s : State} (h : s.Inv) : s.movePins.Inv :=
  State.Inv.movePin_foldl (s := { s with env := { s.env with moves := s.env.moves.tail } })
    ⟨h.memory, h.fields, h.reset⟩ _

theorem State.Inv.boundary {s : State} (h : s.Inv) : s.boundary.Inv := by
  unfold State.boundary State.boundaryGap
  split
  · exact h.movePins
  · exact h.movePins.dmaGap

/-! ### The invariant in a step that serves -/

theorem State.Inv.panelEntry {s : State} (h : s.Inv) (hr : s.pins.resetLow = false) : s.panelEntry.Inv := by
  refine .of_resetHigh ?_ (State.panelEntry_wf h.memory) h.fields.panelEntry
  rw [s.panelEntry_frame]
  exact hr

theorem State.Inv.interruptGrant {s : State} (h : s.Inv) (hr : s.pins.resetLow = false) : s.interruptGrant.Inv :=
  .of_resetHigh (by simpa using hr) (State.interruptGrant_wf h.memory) h.fields.interruptGrant

theorem State.Inv.fetch {s : State} (h : s.Inv) (hr : s.pins.resetLow = false) : s.fetch.state.Inv := by
  rw [s.fetch_frame]
  exact .of_resetHigh hr h.memory h.fields

/-- The meaning of an instruction keeps the invariant outside reset: memory stays canonical, and where IB is loaded IIFF is
set, where IF is loaded it becomes IB (R21). -/
theorem State.Inv.exec {i : Instr} {s t : State} (h : s.Inv) (hr : s.pins.resetLow = false)
    (he : exec i s = .next t) : t.Inv :=
  have f := exec_frame he
  .of_resetHigh (by rw [f.pins, hr]) (f.memory h.memory) (f.fields h.fields)

/-- Settles O6: the boundary keeps the invariant, and so does each of the four things it can decide. -/
theorem everyStepKeepsTheInvariant : Obligations.EveryStepKeepsTheInvariant := by
  intro s t hs h
  have hb := hs.boundary
  have high : s.boundary.decision ≠ .hold → s.boundary.pins.resetLow = false :=
    fun hd => (State.decision_serving hd).1
  obtain ⟨_, rfl⟩ | ⟨hd, rfl⟩ | ⟨hd, rfl⟩ | ⟨hd, hf⟩ := step_cases h
  · exact hb
  · exact (hb.panelEntry (high (by simp [hd]))).spend none
  · exact (hb.interruptGrant (high (by simp [hd]))).spend _
  · have hr := high (by simp [hd])
    have hi := hb.fetch hr
    have hp : s.boundary.fetch.state.pins.resetLow = false := by
      rw [State.fetch_frame]
      exact hr
    obtain ⟨u, hu, rfl⟩ | ⟨f, u, hu, he, rfl⟩ := hf <;> rw [hu] at hi hp
    · exact hi.spend none
    · exact (hi.exec hp he).latchTemp.spend _

/-! ### The ways into panel mode -/

theorem State.startUp_platform (s : State) : s.startUp.platform = s.platform := by
  unfold State.startUp
  split
  · rw [State.spend_platform, State.panelEntry_frame]
  · rfl

theorem State.movePin_platform (s : State) (m : PinMove) : (s.movePin m).platform = s.platform := by
  by_cases hm : m.pin = .reset
  · obtain ⟨pin, low⟩ := m
    obtain rfl : pin = .reset := hm
    simp only [State.movePin]
    split
    · split
      · rfl
      · simp
    · split
      · exact State.startUp_platform { s with clocks := s.clocks + 11 }
      · rfl
  · rw [(State.movePin_frame hm).1]

/-- Of all pin changes only RESET going high with STRTUP low leads from main to panel mode (R213). -/
theorem State.movePin_entersPanel {s : State} {m : PinMove} (h : s.ctrlff = false)
    (ht : (s.movePin m).ctrlff = true) : s.platform.strtupLow = true ∧ m.pin = .reset ∧ m.low = false := by
  by_cases hm : m.pin = .reset
  · obtain ⟨pin, low⟩ := m
    obtain rfl : pin = .reset := hm
    cases low with
    | true =>
      simp only [State.movePin] at ht
      split at ht
      · split at ht <;> simp [h] at ht
      · contradiction
    | false =>
      refine ⟨?_, rfl, rfl⟩
      by_contra hp
      simp [State.movePin, State.release, State.startUp, hp, h, apply_ite State.ctrlff] at ht
  · rw [(State.movePin_frame hm).1] at ht
    simp [h] at ht

theorem State.movePin_foldl_entersPanel (ms : List PinMove) {s : State} (h : s.ctrlff = false)
    (ht : (ms.foldl State.movePin s).ctrlff = true) :
    s.platform.strtupLow = true ∧ ∃ m ∈ ms, m.pin = .reset ∧ m.low = false := by
  induction ms generalizing s with
  | nil => simp [h] at ht
  | cons m rest ih =>
    cases hm : (s.movePin m).ctrlff with
    | true =>
      obtain ⟨hp, he⟩ := State.movePin_entersPanel h hm
      exact ⟨hp, m, List.mem_cons_self, he⟩
    | false =>
      obtain ⟨hp, m', hmem, he⟩ := ih hm ht
      exact ⟨s.movePin_platform m ▸ hp, m', List.mem_cons_of_mem _ hmem, he⟩

theorem State.boundary_ctrlff (s : State) : s.boundary.ctrlff = s.movePins.ctrlff := by
  unfold State.boundary State.boundaryGap
  split <;> rfl

@[simp] theorem State.fetch_state_ctrlff (s : State) : s.fetch.state.ctrlff = s.ctrlff := by
  rw [s.fetch_frame]

/-- Settles O11: from a boundary in main mode only the panel entry leads to panel mode, and a boundary in panel mode
follows a reset released with STRTUP low. -/
theorem panelModeIsEnteredOnlyByARequestOrAReset : Obligations.PanelModeIsEnteredOnlyByARequestOrAReset := by
  intro s t hs h ht
  cases hb : s.boundary.ctrlff with
  | true =>
    rw [State.boundary_ctrlff] at hb
    exact .inr (State.movePin_foldl_entersPanel (s := { s with env := { s.env with moves := s.env.moves.tail } }) _ hs hb)
  | false =>
    obtain ⟨_, rfl⟩ | ⟨hd, _⟩ | ⟨_, rfl⟩ | ⟨_, hf⟩ := step_cases h
    · simp [hb] at ht
    · obtain ⟨_, _, hg⟩ := State.decision_panelEntry hd
      exact .inl ⟨hd, hg⟩
    · simp [State.spendIfDone, hb] at ht
    · have hm : s.boundary.fetch.state.ctrlff = false := by simpa using hb
      obtain ⟨u, hu, rfl⟩ | ⟨f, u, hu, he, rfl⟩ := hf <;> rw [hu] at hm
      · simp [show u.ctrlff = false from hm] at ht
      · have hu' := (exec_frame he).main hm
        simp [State.spendIfDone, hu'] at ht

/-! ### The edges of the request pins -/

@[simp] theorem State.movePin_cpreq_btstrp (s : State) (low : Bool) : (s.movePin ⟨.cpreq, low⟩).btstrp =
    (s.btstrp || (!s.pins.cpreqLow && low && !s.pins.resetLow)) := rfl

@[simp] theorem State.movePin_runHlt_running (s : State) (low : Bool) : (s.movePin ⟨.runHlt, low⟩).running =
    if s.pins.runHltLow && !low && !s.pins.resetLow then !s.running else s.running := rfl

@[simp] theorem State.movePin_runHlt_pins (s : State) (low : Bool) :
    (s.movePin ⟨.runHlt, low⟩).pins = { s.pins with runHltLow := low } := rfl

/-- Settles O20: each flag after an edge is the formula of its pin. -/
theorem requestPinsActOnTheirEdges : Obligations.RequestPinsActOnTheirEdges := by
  intro s
  constructor
  case left =>
    intro hr
    exact ⟨fun hc => by simp [hr, hc], fun hc => by simp [hc], by simp, by simp, by simp [hr]⟩
  case right =>
    intro hr
    exact ⟨by simp [hr], by simp, by simp, by simp [hr]⟩

/-! ### The reset pulse -/

/-- The word an unacknowledged write was storing is all of memory that ending it can change (R211, U7). -/
theorem State.cutShort_read {s : State} {a : Addr} (h : ∀ v, s.waiting ≠ some (.write a v)) :
    s.cutShort.read a = s.read a := by
  unfold State.cutShort
  split
  · rename_i b v hw
    have hab : a ≠ b := fun e => h v (e ▸ hw)
    exact Memory.read_write_other hab
  · rfl

theorem State.cutShort_mem {s : State} (h : ∀ a v, s.waiting ≠ some (.write a v)) : s.cutShort.mem = s.mem := by
  unfold State.cutShort
  split
  · rename_i b v hw
    exact absurd hw (h b v)
  · rfl

theorem Pins.raise_lower {p : Pins} (h : p.resetLow = false) : { { p with resetLow := true } with resetLow := false } = p := by
  rw [← h]

/-- A reset pulse: the state held in reset, started up, with the pins as they were (R212, R213). -/
theorem State.resetPulse_eq {s : State} (h : s.pins.resetLow = false) :
    (s.movePin ⟨.reset, true⟩).movePin ⟨.reset, false⟩ =
      { State.startUp { s.cutShort.resetHold with
          pins := { s.pins with resetLow := true }, clocks := s.clocks + 11 } with pins := s.pins } := by
  have low : s.movePin ⟨.reset, true⟩ = { s.cutShort.resetHold with pins := { s.pins with resetLow := true } } := by
    simp [State.movePin, h]
  rw [low]
  simp [State.movePin, State.release, Pins.raise_lower h]

/-- With STRTUP high the pulse ends as reset left the machine (R213). -/
theorem State.resetPulse_strtupHigh {s : State} (h : s.pins.resetLow = false) (hp : s.platform.strtupLow = false) :
    (s.movePin ⟨.reset, true⟩).movePin ⟨.reset, false⟩ =
      { s.cutShort.resetHold with pins := s.pins, clocks := s.clocks + 11 } := by
  rw [State.resetPulse_eq h, State.startUp, if_neg (by simp [hp])]

/-- With STRTUP low a panel entry follows, which stores the PC of reset (R213). -/
theorem State.resetPulse_strtupLow {s : State} (h : s.pins.resetLow = false) (hp : s.platform.strtupLow = true)
    (ha : s.Acknowledges 1) : (s.movePin ⟨.reset, true⟩).movePin ⟨.reset, false⟩ =
      { s.cutShort.resetHold.takeAck.write ⟨.panel, 0, 0⟩ 0o7777 with
        ctrlff := true, fz := true, pdf := false, pc := 0o7777, pins := s.pins, clocks := s.clocks + 11,
        untimed := s.untimed + 1 } := by
  rw [State.resetPulse_eq h, State.startUp, if_pos (by simpa using hp), State.panelEntry_done (ha.of_acks (by simp))]
  simp [State.takeAck, State.write]

/-- Settles O21: the two ends of the pulse, field by field. -/
theorem resetPulse : Obligations.ResetPulse := by
  intro s h ha
  cases hp : s.platform.strtupLow with
  | false =>
    rw [State.resetPulse_strtupHigh h hp]
    refine ⟨by simp, by simp, by simp [hp], by simp, nofun, fun _ => ⟨by simp, State.cutShort_mem⟩, fun a _ hw => ?_⟩
    exact Eq.trans (by simp [State.read]) (State.cutShort_read hw)
  | true =>
    rw [State.resetPulse_strtupLow h hp ha]
    refine ⟨by simp, by simp, by simp [hp], by simp, fun _ => ⟨rfl, rfl, ?_, fun hm hram => ?_⟩, nofun, fun a hne hw => ?_⟩
    · exact (State.takeAck_envAfter (s.emit (.ioClear true))).of_env rfl (by simp [State.takeAck])
    · exact Memory.read_write_same (State.cutShort_wf hm) (by simpa using hram)
    · exact (Memory.read_write_other (hne rfl)).trans (State.cutShort_read hw)

end Sys2Proof.Machine

section
/-! The address spaces of the two modes, what a gap for DMA does to memory, and what a step that the network holds
keeps. -/

namespace Sys2Proof.Machine

/-! ### The space of the mode -/

theorem State.ownSpace_of_main {s : State} (h : s.ctrlff = false) : s.ownSpace = .main := by
  simp [State.ownSpace, h]

theorem State.ownSpace_of_panel {s : State} (h : s.ctrlff = true) : s.ownSpace = .panel := by
  simp [State.ownSpace, h]

/-- Settles O22: in main mode neither FZ nor PDF matters, in panel mode FZ picks the instruction field and PDF the data
space. -/
theorem addressSpacesByMode : Obligations.AddressSpacesByMode := by
  intro s o
  constructor
  case left =>
    intro h
    simp [State.instrAddr, State.dataAddr, State.stackAddr, State.ownSpace_of_main h, h]
  case right =>
    intro h
    simp [State.instrAddr, State.dataAddr, State.stackAddr, State.ownSpace_of_panel h, h]

/-! ### What a gap for DMA does to memory -/

theorem dmaMemory_append (p : Platform) (m : Memory) (pre post : List DmaTransfer) :
    dmaMemory p m (pre ++ post) = dmaMemory p (dmaMemory p m pre) post := by
  induction pre generalizing m with
  | nil => rfl
  | cons x rest ih =>
    cases x with
    | read a => exact ih m
    | write a v => exact ih (m.write p a v)

/-- A RAM word holds what the last transfer that writes it wrote (R50). -/
theorem dmaMemory_read_last {p : Platform} {m : Memory} {pre post : List DmaTransfer} {a : Addr} {v : Word}
    (hlast : ∀ w, DmaTransfer.write a w ∉ post) (hwf : m.wf = true) (hram : p.kindOf a = .ram) :
    (dmaMemory p m (pre ++ .write a v :: post)).read p a = v := by
  rw [dmaMemory_append, dmaMemory, dmaMemory_read hlast]
  exact Memory.read_write_same (dmaMemory_wf hwf) hram

theorem State.dmaGap_moves (s : State) : DmaMoves (s.env.dma.headD []) s s.dmaGap where
  kept _ h := dmaMemory_read h
  written a v pre post hgap hlast hwf hram := by
    rw [State.read, State.dmaGap_mem, hgap]
    exact dmaMemory_read_last hlast hwf hram

/-- What DMA reads in a gap of one read is the word there before the gap. -/
theorem State.dmaGap_bus_of_read {s : State} {a : Addr} {rest : List (List DmaTransfer)}
    (h : s.env.dma = [.read a] :: rest) : s.dmaGap.env.bus = .dmaRead a (s.read a) :: s.env.bus := by
  simp [h, dmaEvents, State.read]

/-! ### The step, by what the network decides -/

theorem step_of_hold {s : State} (h : s.boundary.decision = .hold) : step s = .next s.boundary := by
  rw [step, h]

theorem step_of_panelEntry {s : State} (h : s.boundary.decision = .panelEntry) :
    step s = .next (s.boundary.panelEntry.spend none) := by
  rw [step, h]

theorem step_of_interruptGrant {s : State} (h : s.boundary.decision = .interruptGrant) :
    step s = .next (s.boundary.interruptGrant.spendIfDone (some 4)) := by
  rw [step, h]

theorem step_of_fetch {s : State} (h : s.boundary.decision = .fetch) : step s = s.boundary.runInstruction := by
  rw [step, h]

/-- Whatever keeps the processor from serving holds it (R189). -/
theorem State.decision_of_not_serving {s : State} (h : ¬ s.Serving) : s.decision = .hold :=
  not_not.mp fun hd => h (State.decision_serving hd)

/-! ### The boundary of a step with no change of RESET -/

/-- No DMA is made while RESET is low or a bus operation waits (R50, R214). -/
theorem State.boundary_of_noGap {s : State} (hm : ∀ m ∈ s.env.moves.headD [], m.pin ≠ .reset)
    (h : s.pins.resetLow = true ∨ s.waiting ≠ none) : s.boundary = s.movePins := by
  obtain ⟨hframe, hreset⟩ := State.movePins_frame hm
  have hwaiting : s.movePins.waiting = s.waiting := by rw [hframe]
  rw [State.boundary, State.boundaryGap, if_pos]
  simpa [hreset, hwaiting, Option.isSome_iff_ne_none] using h

theorem State.boundary_of_gap {s : State} (hm : ∀ m ∈ s.env.moves.headD [], m.pin ≠ .reset)
    (hr : s.pins.resetLow = false) (hw : s.waiting = none) : s.boundary = s.movePins.dmaGap := by
  obtain ⟨hframe, hreset⟩ := State.movePins_frame hm
  have hwaiting : s.movePins.waiting = s.waiting := by rw [hframe]
  rw [State.boundary, State.boundaryGap, if_neg]
  simp [hreset, hwaiting, hr, hw]

/-- `t` differs from `s` in what a boundary without a change of RESET can touch: RUNHLT, BTSTRP, the pins, memory, and
the lists of pin changes, DMA transfers and bus events. -/
def State.BoundaryOnly (s t : State) : Prop :=
  t = { s with
    running := t.running, btstrp := t.btstrp, mem := t.mem, pins := t.pins,
    env := { s.env with moves := s.env.moves.tail, dma := t.env.dma, bus := t.env.bus } }

theorem State.movePins_boundaryOnly {s : State} (hm : ∀ m ∈ s.env.moves.headD [], m.pin ≠ .reset) :
    s.BoundaryOnly s.movePins := by
  obtain ⟨hframe, -⟩ := State.movePins_frame hm
  unfold State.BoundaryOnly
  rw [hframe]

theorem State.BoundaryOnly.dmaGap {s t : State} (h : s.BoundaryOnly t) : s.BoundaryOnly t.dmaGap := by
  unfold State.BoundaryOnly at *
  rw [h]
  rfl

theorem State.boundary_boundaryOnly {s : State} (hm : ∀ m ∈ s.env.moves.headD [], m.pin ≠ .reset) :
    s.BoundaryOnly s.boundary := by
  have hmoved := State.movePins_boundaryOnly hm
  unfold State.boundary State.boundaryGap
  split
  · exact hmoved
  · exact hmoved.dmaGap

/-- With no pin change listed the pins, RUNHLT and BTSTRP are kept. -/
theorem State.boundary_of_noMoves {s : State} (h : s.env.moves.headD [] = []) :
    s.boundary.running = s.running ∧ s.boundary.btstrp = s.btstrp ∧ s.boundary.pins = s.pins := by
  have hmoved : s.movePins = { s with env := { s.env with moves := s.env.moves.tail } } := by
    rw [State.movePins, h, List.foldl_nil]
  unfold State.boundary State.boundaryGap
  rw [hmoved]
  split <;> exact ⟨rfl, rfl, rfl⟩

/-- Settles O19: a held step is its boundary, which is the pin changes and at most one gap for DMA. -/
theorem heldStepsAndDmaKeepTheRegisters : Obligations.HeldStepsAndDmaKeepTheRegisters := by
  intro s
  refine ⟨⟨rfl, s.dmaGap_moves, fun _ _ => State.dmaGap_bus_of_read⟩, fun hd hm => ?_, fun hr hq => ?_⟩
  · obtain ⟨hframe, -⟩ := State.movePins_frame hm
    refine ⟨s.boundary, step_of_hold hd, State.boundary_boundaryOnly hm, State.boundary_of_noMoves, fun h => ?_,
      fun hreset hw => ?_⟩
    · rw [State.boundary_of_noGap hm h, hframe]
      exact ⟨rfl, rfl, rfl⟩
    · rw [State.boundary_of_gap hm hreset hw, hframe]
      exact ⟨rfl, rfl, rfl⟩
  · obtain ⟨hmoves, hdma⟩ := hq
    have hb := State.boundary_idle hmoves hdma
    have hd : s.boundary.decision = .hold :=
      State.decision_of_not_serving fun ⟨_, _, _, hrun⟩ => by simp [hb, hr] at hrun
    rw [step_of_hold hd, hb]

end Sys2Proof.Machine
end

section
/-! Where each bus operation that is never acknowledged leaves the machine (R46, U6): the sequences of the step, then
the instructions, by the operation that hangs. -/

namespace Sys2Proof.Machine

/-! ### Every step has a next state -/

theorem exec_completes (i : Instr) (s : State) : Completes (exec i s) := by
  cases i <;> exact ⟨_, rfl⟩

theorem State.runInstruction_completes (s : State) : Completes s.runInstruction := by
  unfold State.runInstruction
  split
  · exact ⟨_, rfl⟩
  · rename_i t _
    obtain ⟨u, hu⟩ := exec_completes t.current t
    rw [hu]
    exact ⟨_, rfl⟩

theorem step_completes (s : State) : Completes (step s) := by
  cases hd : s.boundary.decision with
  | hold => exact ⟨_, step_of_hold hd⟩
  | panelEntry => exact ⟨_, step_of_panelEntry hd⟩
  | interruptGrant => exact ⟨_, step_of_interruptGrant hd⟩
  | fetch =>
    rw [step_of_fetch hd]
    exact s.boundary.runInstruction_completes

/-! ### The sequences of the step, never acknowledged -/

theorem step_fetch_held {s : State} (h : s.boundary.HangsAfter 0) (hd : s.boundary.decision = .fetch) :
    step s = .next { s.boundary.heldAfter 0 (.fetch (s.boundary.instrAddr s.boundary.pc)) with
      ol := s.boundary.pc, nogrant := false, untimed := s.boundary.untimed + 1 } := by
  rw [step_of_fetch hd, State.runInstruction, State.fetch_held h]
  rfl

theorem step_panelEntry_held {s : State} (h : s.boundary.HangsAfter 0) (hd : s.boundary.decision = .panelEntry) :
    step s = .next { s.boundary.heldAfter 0 (.write ⟨.panel, 0, 0⟩ s.boundary.pc) with
      ctrlff := true, fz := true, pdf := false, untimed := s.boundary.untimed + 1 } := by
  rw [step_of_panelEntry hd, State.panelEntry_held h]
  rfl

theorem step_interruptGrant_held {s : State} (h : s.boundary.HangsAfter 0)
    (hd : s.boundary.decision = .interruptGrant) :
    step s = .next { s.boundary.heldAfter 0 (.write ⟨.main, 0, 0⟩ s.boundary.pc) with
      untimed := s.boundary.untimed + 1 } := by
  rw [step_of_interruptGrant hd, State.interruptGrant_held h]
  rfl

/-- A reset released with STRTUP low, whose panel entry is never acknowledged (R213). -/
theorem State.movePin_release_held {s : State} (h : s.HangsAfter 0) (hr : s.pins.resetLow = true)
    (hp : s.platform.strtupLow = true) :
    s.movePin ⟨.reset, false⟩ = { s.heldAfter 0 (.write ⟨.panel, 0, 0⟩ s.pc) with
      ctrlff := true, fz := true, pdf := false, clocks := s.clocks + 11, untimed := s.untimed + 1,
      pins := { s.pins with resetLow := false } } := by
  have h' : ({ s with clocks := s.clocks + 11 } : State).HangsAfter 0 := h.of_acks rfl
  have hrelease : s.movePin ⟨.reset, false⟩ = s.release := by simp [State.movePin, hr]
  rw [hrelease, State.release, State.startUp, if_pos hp, State.panelEntry_held h']
  rfl

/-- A waiting operation holds the machine until RESET. -/
theorem step_of_waiting {s : State} (hw : s.waiting ≠ none) (hm : ∀ m ∈ s.env.moves.headD [], m.pin ≠ .reset) :
    step s = .next s.movePins := by
  have hb := State.boundary_of_noGap hm (.inr hw)
  have hd : s.boundary.decision = .hold := State.decision_of_not_serving fun ⟨_, hnone, _, _⟩ => by
    rw [(State.boundary_boundaryOnly hm : s.boundary = _)] at hnone
    exact hw hnone
  rw [step_of_hold hd, hb]

/-! ### The pointer of a memory reference instruction -/

theorem autoindex_iff (ia : Word) : autoindex ia = true ↔ 8 ≤ ia.toNat ∧ ia.toNat ≤ 15 := by
  simp [autoindex, BitVec.le_def]

theorem State.effectiveAddress_held {s : State} (p : Bool) (a : BitVec 7) (h : s.HangsAfter 0) :
    s.effectiveAddress true p a = .hung (s.heldIn (.read (s.instrAddr (s.instructionAddress p a)))) := by
  obtain ⟨hi, _⟩ | ⟨_, _, e⟩ | ⟨_, _, e⟩ := s.effectiveAddress_cases true p a
  · cases hi
  · rw [e, State.busIncrement_held _ h]
  · rw [e, State.busRead_held _ h]

theorem State.effectiveAddress_held_write {s : State} {p : Bool} {a : BitVec 7} (h : s.HangsAfter 1)
    (ha : 8 ≤ (s.instructionAddress p a).toNat ∧ (s.instructionAddress p a).toNat ≤ 15) :
    s.effectiveAddress true p a = .hung (s.dmaGap.heldAfter 1 (.write (s.instrAddr (s.instructionAddress p a))
      (s.dmaGap.read (s.instrAddr (s.instructionAddress p a)) + 1))) := by
  obtain ⟨hi, _⟩ | ⟨_, _, e⟩ | ⟨_, hn, _⟩ := s.effectiveAddress_cases true p a
  · cases hi
  · rw [e, State.busIncrement_held_write _ h]
  · simp [(autoindex_iff _).mpr ha] at hn

/-- Where the pointer's operation hangs, nothing of the instruction follows. -/
theorem exec_of_effectiveAddress_hung {s t : State} {ind p : Bool} {a : BitVec 7}
    (h : s.effectiveAddress ind p a = .hung t) :
    ∀ i ∈ [Instr.and ind p a, .tad ind p a, .isz ind p a, .dca ind p a, .jms ind p a, .jmp ind p a],
      exec i s = .next t := by
  simp [exec_and, exec_tad, exec_isz, exec_dca, exec_jms, exec_jmp, State.operand, State.operandAddr, h]

/-! ### The operation of a memory reference instruction at its effective address -/

section
variable {s t : State} {i p : Bool} {a : BitVec 7} {ea : Word} {b : Addr}

/-- AND, TAD and ISZ begin with the read of the operand. -/
theorem exec_of_operand_held (hb : s.operandAddr i p a = .done b t) (h : t.HangsAfter 0) :
    ∀ j ∈ [Instr.and i p a, .tad i p a, .isz i p a], exec j s = .next (t.heldIn (.read b)) := by
  simp [exec_and, exec_tad, exec_isz, State.operand, hb, State.busRead_held b h, State.busIncrement_held b h]

theorem exec_isz_held_write (hb : s.operandAddr i p a = .done b t) (h : t.HangsAfter 1) :
    exec (.isz i p a) s = .next (t.dmaGap.heldAfter 1 (.write b (t.dmaGap.read b + 1))) := by
  simp [exec_isz, hb, State.busIncrement_held_write b h]

theorem exec_dca_held (hb : s.operandAddr i p a = .done b t) (h : t.HangsAfter 0) :
    exec (.dca i p a) s = .next (t.heldIn (.write b t.ac)) := by
  simp [exec_dca, hb, State.busWrite_held b _ h]

/-- JMS hangs after its field transfer or before it, as the platform orders the two (R71, D5). -/
theorem exec_jms_held (he : s.effectiveAddress i p a = .done ea t) (h : t.HangsAfter 0) :
    exec (.jms i p a) s = .next (if t.platform.jmsStoreAfterTransfer then
      t.fieldTransfer.heldIn (.write (t.fieldTransfer.instrAddr ea) t.pc)
      else t.heldIn (.write (t.instrAddr ea) t.pc)) := by
  have h' : t.fieldTransfer.HangsAfter 0 := h.of_acks rfl
  rw [exec_jms, he, Bus.finish_done, State.busWrite_held _ _ h, State.busWrite_held _ _ h']
  rfl

end

/-! ### The stacks -/

theorem exec_ppc1 (s : State) : exec .ppc1 s = .next (s.push1 (s.pc + 1)) := rfl
theorem exec_ppc2 (s : State) : exec .ppc2 s = .next (s.push2 (s.pc + 1)) := rfl
theorem exec_pac1 (s : State) : exec .pac1 s = .next (s.push1 s.ac) := rfl
theorem exec_pac2 (s : State) : exec .pac2 s = .next (s.push2 s.ac) := rfl

theorem exec_pop1 (s : State) : exec .pop1 s =
    .next ((s.raiseSp1.busRead (s.raiseSp1.stackAddr (s.sp1 + 1))).finish fun v u => { u with ac := v }) := rfl

theorem exec_pop2 (s : State) : exec .pop2 s =
    .next ((s.raiseSp2.busRead (s.raiseSp2.stackAddr (s.sp2 + 1))).finish fun v u => { u with ac := v }) := rfl

theorem exec_rtn1 (s : State) : exec .rtn1 s =
    .next ((s.raiseSp1.fieldTransfer.busRead (s.raiseSp1.fieldTransfer.returnAddr s (s.sp1 + 1))).finish fun v u =>
      { u with pc := v }) := rfl

theorem exec_rtn2 (s : State) : exec .rtn2 s =
    .next ((s.raiseSp2.fieldTransfer.busRead (s.raiseSp2.fieldTransfer.returnAddr s (s.sp2 + 1))).finish fun v u =>
      { u with pc := v }) := rfl

theorem State.push1_held {s : State} (v : Word) (h : s.HangsAfter 0) :
    s.push1 v = s.heldIn (.write (s.stackAddr s.sp1) v) := by
  rw [State.push1, State.busWrite_held _ _ h, Bus.finish_hung]

theorem State.push2_held {s : State} (v : Word) (h : s.HangsAfter 0) :
    s.push2 v = s.heldIn (.write (s.stackAddr s.sp2) v) := by
  rw [State.push2, State.busWrite_held _ _ h, Bus.finish_hung]

/-- A pop has raised its stack pointer before it waits (R14). -/
theorem exec_pop1_held {s : State} (h : s.HangsAfter 0) :
    exec .pop1 s = .next { s.heldIn (.read (s.stackAddr (s.sp1 + 1))) with sp1 := s.sp1 + 1 } := by
  have h' : s.raiseSp1.HangsAfter 0 := h.of_acks rfl
  rw [exec_pop1, State.busRead_held _ h']
  rfl

theorem exec_pop2_held {s : State} (h : s.HangsAfter 0) :
    exec .pop2 s = .next { s.heldIn (.read (s.stackAddr (s.sp2 + 1))) with sp2 := s.sp2 + 1 } := by
  have h' : s.raiseSp2.HangsAfter 0 := h.of_acks rfl
  rw [exec_pop2, State.busRead_held _ h']
  rfl

/-- The stack of a return, by the mode and the flags before its field transfer (R140, D6). -/
theorem State.returnAddr_of_transferred {s t : State} (hp : t.platform = s.platform)
    (hc : t.ctrlff = (s.ctrlff && !s.pexff)) (sp : Word) :
    t.returnAddr s sp =
      ⟨if !s.ctrlff || s.pexff || !s.platform.rtnMainStackOnlyAfterPex then .main else .panel, 0, sp⟩ := by
  unfold State.returnAddr State.stackAddr State.ownSpace
  rw [hp, hc]
  cases s.ctrlff <;> cases s.pexff <;> cases s.platform.rtnMainStackOnlyAfterPex <;> rfl

/-- A return has raised its stack pointer and made its field transfer before it waits (R140, R141). -/
theorem exec_rtn1_held {s : State} (h : s.HangsAfter 0) :
    exec .rtn1 s = .next { s.fieldTransfer.heldIn (.read
      ⟨if !s.ctrlff || s.pexff || !s.platform.rtnMainStackOnlyAfterPex then .main else .panel, 0, s.sp1 + 1⟩) with
      sp1 := s.sp1 + 1 } := by
  have h' : s.raiseSp1.fieldTransfer.HangsAfter 0 := h.of_acks rfl
  have ha := State.returnAddr_of_transferred (s := s) (t := s.raiseSp1.fieldTransfer) rfl rfl (s.sp1 + 1)
  rw [exec_rtn1, ha, State.busRead_held _ h']
  rfl

theorem exec_rtn2_held {s : State} (h : s.HangsAfter 0) :
    exec .rtn2 s = .next { s.fieldTransfer.heldIn (.read
      ⟨if !s.ctrlff || s.pexff || !s.platform.rtnMainStackOnlyAfterPex then .main else .panel, 0, s.sp2 + 1⟩) with
      sp2 := s.sp2 + 1 } := by
  have h' : s.raiseSp2.fieldTransfer.HangsAfter 0 := h.of_acks rfl
  have ha := State.returnAddr_of_transferred (s := s) (t := s.raiseSp2.fieldTransfer) rfl rfl (s.sp2 + 1)
  rw [exec_rtn2, ha, State.busRead_held _ h']
  rfl

/-! ### The switch register and the device -/

theorem exec_osr (s : State) : exec .osr s = .next s.orSwitch.state := rfl
theorem exec_las (s : State) : exec .las s = .next s.clearAc.orSwitch.state := rfl
theorem exec_wsr (s : State) : exec .wsr s = .next (s.switchWrite.finish fun _ t => t.clearAc) := rfl

theorem exec_iot (device : BitVec 6) (op : Field) (s : State) : exec (.iot device op) s =
    .next ((s.deviceBus (encode (.iot device op))).finish fun d t =>
      { t.skipIf d.skipLow with ac := d.accumulator t.ac, intgntff := t.intgntff && t.ctrlff }) := rfl

theorem State.orSwitch_held {s : State} (h : s.HangsAfter 0) :
    s.orSwitch = .hung (s.heldIn (.switchRead s.df)) := by
  rw [State.orSwitch, State.switchBus_held h, Bus.andThen_hung]

/-- A group 2 word with OSR hangs in the state that its test and its CLA give; HLT is not reached (R98). -/
theorem exec_opr2_held {s : State} (h : s.HangsAfter 0) (cla sma sza snl sense hlt : Bool) :
    ∃ t, exec (.opr2 cla sma sza snl sense false false) s = .next t ∧
      exec (.opr2 cla sma sza snl sense true hlt) s = .next (t.heldIn (.switchRead s.df)) := by
  refine ⟨(s.skipIf (s.skipTest sma sza snl sense)).doIf cla State.clearAc, rfl, ?_⟩
  have h' : ((s.skipIf (s.skipTest sma sza snl sense)).doIf cla State.clearAc).HangsAfter 0 :=
    h.of_acks (by cases cla <;> rfl)
  rw [exec_opr2, State.group2, if_pos rfl, State.orSwitch_held h']
  cases cla <;> rfl

theorem exec_osr_held {s : State} (h : s.HangsAfter 0) : exec .osr s = .next (s.heldIn (.switchRead s.df)) := by
  rw [exec_osr, State.orSwitch_held h, Bus.state_hung]

theorem exec_las_held {s : State} (h : s.HangsAfter 0) :
    exec .las s = .next { s.heldIn (.switchRead s.df) with ac := 0 } := by
  have h' : s.clearAc.HangsAfter 0 := h.of_acks rfl
  rw [exec_las, State.orSwitch_held h']
  rfl

theorem exec_wsr_held {s : State} (h : s.HangsAfter 0) :
    exec .wsr s = .next (s.heldIn (.switchWrite s.df s.ac)) := by
  rw [exec_wsr, State.switchWrite_held h, Bus.finish_hung]

theorem exec_iot_held {s : State} (h : s.HangsAfter 0) (device : BitVec 6) (op : Field) :
    exec (.iot device op) s = .next (s.heldIn (.iot (encode (.iot device op)) s.df s.ac)) := by
  rw [exec_iot, State.deviceBus_held _ h, Bus.finish_hung]

/-! ### Instructions that make no bus operation -/

/-- From `s` to `t` no bus operation of the processor was made: none waits that did not, no acknowledgement is used. -/
structure State.NoBusOp (s t : State) : Prop where
  waiting : t.waiting = s.waiting
  acks : t.env.acks = s.env.acks

theorem exec_of_no_bus {i : Instr} {s t : State} (hi : i.usesBus = false) :
    exec i s = .next t → s.NoBusOp t := by
  cases i with
  | and | tad | isz | dca | jms | ppc1 | ppc2 | pac1 | pac2 | rtn1 | rtn2 | pop1 | pop2 => cases hi
  | osr | las | wsr | iot => cases hi
  | jmp ind p a =>
    obtain rfl : ind = false := hi
    exact of_next ⟨rfl, rfl⟩
  | opr1 cla cll cma cml rot iac =>
    rw [exec_opr1]
    exact of_next ⟨State.group1_waiting .., by rw [State.group1_env]⟩
  | opr2 cla sma sza snl sense osr hlt =>
    obtain rfl : osr = false := hi
    rw [exec_opr2, State.group2_no_switch]
    exact of_next ⟨rfl, rfl⟩
  | _ => exact of_next ⟨rfl, rfl⟩

/-- Settles O8, operation by operation: each is hung in the state its lemma says, and the rest of its sequence is not
done. -/
theorem anUnacknowledgedOperationWaitsForReset : Obligations.AnUnacknowledgedOperationWaitsForReset := by
  intro s
  refine ⟨step_completes s, fun h => ⟨step_fetch_held h, step_panelEntry_held h, step_interruptGrant_held h⟩,
    State.movePin_release_held, ?pointer, ?operand, ?noAddress, ?noBus, ?waiting⟩
  case pointer =>
    intro p a ia x i hi
    exact ⟨fun h => exec_of_effectiveAddress_hung (State.effectiveAddress_held p a h) i hi,
      fun h ha => exec_of_effectiveAddress_hung (State.effectiveAddress_held_write h ha) i hi⟩
  case operand =>
    intro i p a ea t he
    have hb := State.operandAddr_done he
    have ht : s.BusOnly t := by simpa [he] using s.effectiveAddress_busOnly i p a
    refine ⟨fun h => ⟨exec_of_operand_held hb h, ?_, ?_⟩, exec_isz_held_write hb⟩
    · rw [exec_dca_held hb h, ht.ac]
    · rw [exec_jms_held he h, ht.platform, ht.pc]
  case noAddress =>
    intro h
    refine ⟨?_, ?_, ?_, ?_, exec_pop1_held h, exec_pop2_held h, exec_rtn1_held h, exec_rtn2_held h, exec_osr_held h,
      exec_las_held h, exec_opr2_held h, exec_wsr_held h, exec_iot_held h⟩
    · rw [exec_ppc1, State.push1_held _ h]
    · rw [exec_ppc2, State.push2_held _ h]
    · rw [exec_pac1, State.push1_held _ h]
    · rw [exec_pac2, State.push2_held _ h]
  case noBus =>
    intro i t hi ht
    obtain ⟨hw, ha⟩ := exec_of_no_bus hi ht
    exact ⟨hw, ha⟩
  case waiting =>
    intro t hw hm ht
    obtain rfl : s.movePins = t := by simpa [step_of_waiting hw hm] using ht
    rw [(State.movePins_frame hm).1]
    exact ⟨rfl, rfl, rfl⟩

end Sys2Proof.Machine
end

section
/-! The instruction word and its fields (R52 to R60): a word is put together from exactly the fields the decoder reads
from it, so that the decoder and the encoder are inverse to each other, template by template. -/

namespace Sys2Proof

/-! ### A word and its fields, one equivalence per template -/

/-- A bit of the word as a field of width 1, so that it joins with its neighbours (R7). -/
theorem ofBool_bit (w : Word) (i : Nat) : BitVec.ofBool (bit w i) = w.extractLsb' (11 - i) 1 := by
  ext j hj
  obtain rfl : j = 0 := by omega
  simp [bit]

/-- The template of a memory reference word (R53). -/
theorem memRefWord_eq_iff {op : BitVec 3} {i p : Bool} {a : BitVec 7} {w : Word} :
    op ++ BitVec.ofBool i ++ BitVec.ofBool p ++ a = w ↔
      bits3 w 0 = op ∧ bit w 3 = i ∧ bit w 4 = p ∧ pageAddress w = a := by
  constructor
  · rintro rfl
    simp [bits3, bit, pageAddress, BitVec.getLsbD_append, BitVec.extractLsb'_append_eq_ite, -Nat.reduceAdd,
      -BitVec.getLsbD_eq_getElem]
  · rintro ⟨rfl, rfl, rfl, rfl⟩
    simp [ofBool_bit, bits3, pageAddress, BitVec.extractLsb'_append_extractLsb'_eq_extractLsb', -Nat.reduceAdd]

/-- The template of a group 1 word (R54). -/
theorem group1Word_eq_iff {cla cll cma cml iac : Bool} {rot : Field} {w : Word} :
    group1Word cla cll cma cml rot iac = w ↔ bits3 w 0 = 7 ∧ bit w 3 = false ∧ bit w 4 = cla ∧ bit w 5 = cll ∧
      bit w 6 = cma ∧ bit w 7 = cml ∧ bits3 w 8 = rot ∧ bit w 11 = iac := by
  constructor
  · rintro rfl
    simp [group1Word, bits3, bit, BitVec.getLsbD_append, BitVec.extractLsb'_append_eq_ite, -Nat.reduceAdd,
      -BitVec.getLsbD_eq_getElem]
  · rintro ⟨h0, h3, rfl, rfl, rfl, rfl, rfl, rfl⟩
    have hop : 0b1110#4 = bits3 w 0 ++ BitVec.ofBool (bit w 3) := by rw [h0, h3]; rfl
    simp [group1Word, hop, ofBool_bit, bits3, BitVec.extractLsb'_append_extractLsb'_eq_extractLsb', -Nat.reduceAdd]

/-- The template of a group 2 word (R55). -/
theorem group2Word_eq_iff {cla sma sza snl sense osr hlt : Bool} {w : Word} :
    group2Word cla sma sza snl sense osr hlt = w ↔ bits3 w 0 = 7 ∧ bit w 3 = true ∧ bit w 11 = false ∧
      bit w 4 = cla ∧ bit w 5 = sma ∧ bit w 6 = sza ∧ bit w 7 = snl ∧ bit w 8 = sense ∧ bit w 9 = osr ∧
      bit w 10 = hlt := by
  constructor
  · rintro rfl
    simp [group2Word, bits3, bit, BitVec.getLsbD_append, BitVec.extractLsb'_append_eq_ite, -Nat.reduceAdd,
      -BitVec.getLsbD_eq_getElem]
  · rintro ⟨h0, h3, h11, rfl, rfl, rfl, rfl, rfl, rfl, rfl⟩
    have hop : 0b1111#4 = bits3 w 0 ++ BitVec.ofBool (bit w 3) := by rw [h0, h3]; rfl
    have hlow : 0b0#1 = BitVec.ofBool (bit w 11) := by rw [h11]; rfl
    simp [group2Word, hop, hlow, ofBool_bit, bits3, BitVec.extractLsb'_append_extractLsb'_eq_extractLsb',
      -Nat.reduceAdd]

/-- The template of a group 3 word (R56). -/
theorem group3Word_eq_iff {cla mqa u6 mql : Bool} {u8to10 : Field} {w : Word} :
    group3Word cla mqa u6 mql u8to10 = w ↔ bits3 w 0 = 7 ∧ bit w 3 = true ∧ bit w 11 = true ∧
      bit w 4 = cla ∧ bit w 5 = mqa ∧ bit w 6 = u6 ∧ bit w 7 = mql ∧ bits3 w 8 = u8to10 := by
  constructor
  · rintro rfl
    simp [group3Word, bits3, bit, BitVec.getLsbD_append, BitVec.extractLsb'_append_eq_ite, -Nat.reduceAdd,
      -BitVec.getLsbD_eq_getElem]
  · rintro ⟨h0, h3, h11, rfl, rfl, rfl, rfl, rfl⟩
    have hop : 0b1111#4 = bits3 w 0 ++ BitVec.ofBool (bit w 3) := by rw [h0, h3]; rfl
    have hlow : 0b1#1 = BitVec.ofBool (bit w 11) := by rw [h11]; rfl
    simp [group3Word, hop, hlow, ofBool_bit, bits3, BitVec.extractLsb'_append_extractLsb'_eq_extractLsb',
      -Nat.reduceAdd]

/-- The template of an IOT word (R57). -/
theorem iotWord_eq_iff {device : BitVec 6} {f : Field} {w : Word} :
    0b110#3 ++ device ++ f = w ↔ bits3 w 0 = 6 ∧ deviceCode w = device ∧ bits3 w 9 = f := by
  constructor
  · rintro rfl
    simp [bits3, deviceCode, BitVec.extractLsb'_append_eq_ite, -Nat.reduceAdd]
  · rintro ⟨h0, rfl, rfl⟩
    have hop : 0b110#3 = bits3 w 0 := h0.symm
    simp [hop, bits3, deviceCode, BitVec.extractLsb'_append_extractLsb'_eq_extractLsb', -Nat.reduceAdd]

/-- The last digit of the device code is the third octal digit of the word (R57). -/
theorem deviceCode_low (w : Word) : (deviceCode w).extractLsb' 0 3 = bits3 w 6 := by
  ext i hi
  have hi6 : i < 6 := by omega
  simp [deviceCode, bits3, hi6]

/-- The template of an IOT word of device codes 20 to 27 (R57). -/
theorem device2xWord_eq_iff {x f : Field} {w : Word} :
    0b110010#6 ++ x ++ f = w ↔ bits3 w 0 = 6 ∧ deviceCode w = 0b010#3 ++ x ∧ bits3 w 6 = x ∧ bits3 w 9 = f := by
  have hx : ∀ x : Field, 0b110010#6 ++ x = 0b110#3 ++ (0b010#3 ++ x) ∧ (0b010#3 ++ x).extractLsb' 0 3 = x := by
    decide
  obtain ⟨hsplit, hlow⟩ := hx x
  rw [hsplit, iotWord_eq_iff, ← deviceCode_low]
  constructor
  · rintro ⟨h0, hd, h9⟩
    exact ⟨h0, hd, by rw [hd, hlow], h9⟩
  · rintro ⟨h0, hd, -, h9⟩
    exact ⟨h0, hd, h9⟩

/-- Device codes 00 and 20 to 27 (R179). -/
theorem internalDevice_iff {d : BitVec 6} : internalDevice d = true ↔ d = 0 ∨ d = 0b010#3 ++ d.extractLsb' 0 3 := by
  revert d
  decide

theorem internalDevice_2x (x : Field) :
    (0b010#3 ++ x : BitVec 6) ≠ 0 ∧ internalDevice (0b010#3 ++ x) = true := by
  revert x
  decide

/-! ### The decoder, one equation per format -/

theorem decodeWord_iot {w : Word} (panel : Bool) (h : bits3 w 0 = 6) : decodeWord panel w = decodeIot panel w := by
  simp [decodeWord, h]

theorem decodeWord_group1 {w : Word} (panel : Bool) (h : bits3 w 0 = 7) (h3 : bit w 3 = false) :
    decodeWord panel w = decodeGroup1 w := by
  simp [decodeWord, h, h3]

theorem decodeWord_group2 {w : Word} (panel : Bool) (h : bits3 w 0 = 7) (h3 : bit w 3 = true)
    (h11 : bit w 11 = false) : decodeWord panel w = decodeGroup2 w := by
  simp [decodeWord, h, h3, h11]

theorem decodeWord_group3 {w : Word} (panel : Bool) (h : bits3 w 0 = 7) (h3 : bit w 3 = true)
    (h11 : bit w 11 = true) : decodeWord panel w = decodeGroup3 w := by
  simp [decodeWord, h, h3, h11]

/-- Only the IOT words are decoded with a look at the mode (R59). -/
theorem decodeWord_of_not_iot {w : Word} (h : bits3 w 0 ≠ 6) (panel panel' : Bool) :
    decodeWord panel w = decodeWord panel' w := by
  unfold decodeWord
  split
  case h_7 h6 => exact absurd (BitVec.eq_of_toNat_eq h6) h
  all_goals rfl

theorem decodeIot_device00 {w : Word} (panel : Bool) (h : deviceCode w = 0) :
    decodeIot panel w = decodeDevice00 panel (bits3 w 9) :=
  if_pos h

theorem decodeIot_device2x {w : Word} (panel : Bool) (h0 : deviceCode w ≠ 0)
    (h : internalDevice (deviceCode w) = true) : decodeIot panel w = decodeDevice2x (bits3 w 6) (bits3 w 9) := by
  rw [decodeIot, if_neg h0, if_pos h]

theorem decodeIot_external {w : Word} (panel : Bool) (h : ¬ internalDevice (deviceCode w) = true) :
    decodeIot panel w = .iot (deviceCode w) (bits3 w 9) := by
  have h0 : deviceCode w ≠ 0 := fun h0 => h (internalDevice_iff.2 (.inl h0))
  rw [decodeIot, if_neg h0, if_neg h]

theorem eq_ofNat_of_toNat_eq {w : Word} {n : Nat} (h : w.toNat = n) : w = BitVec.ofNat 12 n := by
  rw [← h, BitVec.ofNat_toNat, BitVec.setWidth_eq]

/-- What the listing of group 1 does not name is the generic instruction (R58). -/
theorem decodeGroup1_of_unnamed {w : Word} (h : w ∉ namedGroup1) :
    decodeGroup1 w = .opr1 (bit w 4) (bit w 5) (bit w 6) (bit w 7) (bits3 w 8) (bit w 11) := by
  unfold decodeGroup1
  split
  case h_23 => rfl
  all_goals
    next hw => exact absurd (eq_ofNat_of_toNat_eq hw ▸ by decide) h

/-- What the listing of group 2 does not name is the generic instruction (R58). -/
theorem decodeGroup2_of_unnamed {w : Word} (h : w ∉ namedGroup2) :
    decodeGroup2 w = .opr2 (bit w 4) (bit w 5) (bit w 6) (bit w 7) (bit w 8) (bit w 9) (bit w 10) := by
  unfold decodeGroup2
  split
  case h_25 => rfl
  all_goals
    next hw => exact absurd (eq_ofNat_of_toNat_eq hw ▸ by decide) h

/-- What the listing of group 3 does not name is the generic instruction (R58). -/
theorem decodeGroup3_of_unnamed {w : Word} (h : w ∉ namedGroup3) :
    decodeGroup3 w = .opr3 (bit w 4) (bit w 5) (bit w 6) (bit w 7) (bits3 w 8) := by
  unfold decodeGroup3
  split
  case h_9 => rfl
  all_goals
    next hw => exact absurd (eq_ofNat_of_toNat_eq hw ▸ by decide) h

/-! ### Encoding, then decoding -/

theorem Instr.wellFormed_opr1 {cla cll cma cml iac : Bool} {rot : Field} :
    (Instr.opr1 cla cll cma cml rot iac).wellFormed = true ↔ group1Word cla cll cma cml rot iac ∉ namedGroup1 := by
  simp [Instr.wellFormed]

theorem Instr.wellFormed_opr2 {cla sma sza snl sense osr hlt : Bool} :
    (Instr.opr2 cla sma sza snl sense osr hlt).wellFormed = true ↔
      group2Word cla sma sza snl sense osr hlt ∉ namedGroup2 := by
  simp [Instr.wellFormed]

theorem Instr.wellFormed_opr3 {cla mqa u6 mql : Bool} {u8to10 : Field} :
    (Instr.opr3 cla mqa u6 mql u8to10).wellFormed = true ↔ group3Word cla mqa u6 mql u8to10 ∉ namedGroup3 := by
  simp [Instr.wellFormed]

theorem Instr.wellFormed_iot {device : BitVec 6} {f : Field} :
    (Instr.iot device f).wellFormed = true ↔ ¬ internalDevice device = true := by
  simp [Instr.wellFormed]

/-- Settles O1, template by template: the fields the decoder reads are those the encoder put there, and the word of a
well-formed generic term is in no listing; the words without operands are evaluated. -/
theorem decodeOfEncodeIsTheInstruction : Obligations.DecodeOfEncodeIsTheInstruction := by
  intro panel i hwf hmode
  generalize hw : encode i = w
  cases i with
  | and i p a | tad i p a | isz i p a | dca i p a | jms i p a | jmp i p a =>
    obtain ⟨h0, hi, hp, ha⟩ := memRefWord_eq_iff.1 hw
    simp [decodeWord, h0, hi, hp, ha]
  | opr1 cla cll cma cml rot iac =>
    obtain ⟨h0, h3, h4, h5, h6, h7, h8, h11⟩ := group1Word_eq_iff.1 hw
    have hn : w ∉ namedGroup1 := hw ▸ Instr.wellFormed_opr1.1 hwf
    rw [decodeWord_group1 panel h0 h3, decodeGroup1_of_unnamed hn, h4, h5, h6, h7, h8, h11]
  | opr2 cla sma sza snl sense osr hlt =>
    obtain ⟨h0, h3, h11, h4, h5, h6, h7, h8, h9, h10⟩ := group2Word_eq_iff.1 hw
    have hn : w ∉ namedGroup2 := hw ▸ Instr.wellFormed_opr2.1 hwf
    rw [decodeWord_group2 panel h0 h3 h11, decodeGroup2_of_unnamed hn, h4, h5, h6, h7, h8, h9, h10]
  | opr3 cla mqa u6 mql u8to10 =>
    obtain ⟨h0, h3, h11, h4, h5, h6, h7, h8⟩ := group3Word_eq_iff.1 hw
    have hn : w ∉ namedGroup3 := hw ▸ Instr.wellFormed_opr3.1 hwf
    rw [decodeWord_group3 panel h0 h3 h11, decodeGroup3_of_unnamed hn, h4, h5, h6, h7, h8]
  | iot device f =>
    obtain ⟨h0, rfl, h9⟩ := iotWord_eq_iff.1 hw
    rw [decodeWord_iot panel h0, decodeIot_external panel (Instr.wellFormed_iot.1 hwf), h9]
  | cdf x | cif x | cdfCif x =>
    obtain ⟨h0, hd, hx, h9⟩ := device2xWord_eq_iff.1 hw
    obtain ⟨hne, hint⟩ : deviceCode w ≠ 0 ∧ internalDevice (deviceCode w) = true := hd ▸ internalDevice_2x x
    rw [decodeWord_iot panel h0, decodeIot_device2x panel hne hint, hx, h9]
    rfl
  | skon | srq | gtf =>
    obtain rfl : panel = false := by simpa [Instr.inMode] using hmode
    subst hw
    rfl
  | prs | pgo | pex =>
    obtain rfl : panel = true := hmode
    subst hw
    rfl
  | _ =>
    subst hw
    rfl

/-! ### Decoding, then encoding -/

/-- The instruction a word must decode to: well formed, of the mode, and with that word. -/
def Instr.StandsFor (panel : Bool) (w : Word) (i : Instr) : Prop :=
  encode i = w ∧ i.wellFormed = true ∧ i.inMode panel = true

theorem decodeWord_memRef_standsFor {w : Word} (panel : Bool) (h : (bits3 w 0).toNat < 6) :
    (decodeWord panel w).StandsFor panel w := by
  have hops : ∀ op : Field, op.toNat < 6 → op = 0 ∨ op = 1 ∨ op = 2 ∨ op = 3 ∨ op = 4 ∨ op = 5 := by decide
  rcases hops _ h with h | h | h | h | h | h <;> simp only [decodeWord, h] <;>
    exact ⟨memRefWord_eq_iff.2 ⟨h, rfl, rfl, rfl⟩, rfl, rfl⟩

theorem decodeGroup1_standsFor_of_named (panel : Bool) :
    ∀ w ∈ namedGroup1, (decodeGroup1 w).StandsFor panel w := by
  simp only [namedGroup1, Instr.StandsFor, List.forall_mem_cons, List.not_mem_nil, false_implies,
    implies_true, and_true]
  and_intros <;> rfl

theorem decodeGroup2_standsFor_of_named (panel : Bool) :
    ∀ w ∈ namedGroup2, (decodeGroup2 w).StandsFor panel w := by
  simp only [namedGroup2, Instr.StandsFor, List.forall_mem_cons, List.not_mem_nil, false_implies,
    implies_true, and_true]
  and_intros <;> rfl

theorem decodeGroup3_standsFor_of_named (panel : Bool) :
    ∀ w ∈ namedGroup3, (decodeGroup3 w).StandsFor panel w := by
  simp only [namedGroup3, Instr.StandsFor, List.forall_mem_cons, List.not_mem_nil, false_implies,
    implies_true, and_true]
  and_intros <;> rfl

theorem decodeGroup1_standsFor {w : Word} (panel : Bool) (h0 : bits3 w 0 = 7) (h3 : bit w 3 = false) :
    (decodeGroup1 w).StandsFor panel w := by
  by_cases hn : w ∈ namedGroup1
  · exact decodeGroup1_standsFor_of_named panel w hn
  · have hw := group1Word_eq_iff.2 ⟨h0, h3, rfl, rfl, rfl, rfl, rfl, rfl⟩
    rw [decodeGroup1_of_unnamed hn]
    exact ⟨hw, Instr.wellFormed_opr1.2 (hw.symm ▸ hn), rfl⟩

theorem decodeGroup2_standsFor {w : Word} (panel : Bool) (h0 : bits3 w 0 = 7) (h3 : bit w 3 = true)
    (h11 : bit w 11 = false) : (decodeGroup2 w).StandsFor panel w := by
  by_cases hn : w ∈ namedGroup2
  · exact decodeGroup2_standsFor_of_named panel w hn
  · have hw := group2Word_eq_iff.2 ⟨h0, h3, h11, rfl, rfl, rfl, rfl, rfl, rfl, rfl⟩
    rw [decodeGroup2_of_unnamed hn]
    exact ⟨hw, Instr.wellFormed_opr2.2 (hw.symm ▸ hn), rfl⟩

theorem decodeGroup3_standsFor {w : Word} (panel : Bool) (h0 : bits3 w 0 = 7) (h3 : bit w 3 = true)
    (h11 : bit w 11 = true) : (decodeGroup3 w).StandsFor panel w := by
  by_cases hn : w ∈ namedGroup3
  · exact decodeGroup3_standsFor_of_named panel w hn
  · have hw := group3Word_eq_iff.2 ⟨h0, h3, h11, rfl, rfl, rfl, rfl, rfl⟩
    rw [decodeGroup3_of_unnamed hn]
    exact ⟨hw, Instr.wellFormed_opr3.2 (hw.symm ▸ hn), rfl⟩

theorem decodeDevice00_standsFor (panel : Bool) (f : Field) :
    (decodeDevice00 panel f).StandsFor panel (0b110#3 ++ (0 : BitVec 6) ++ f) := by
  unfold Instr.StandsFor
  revert panel f
  decide

theorem decodeDevice2x_standsFor (panel : Bool) (x f : Field) :
    (decodeDevice2x x f).StandsFor panel (0b110010#6 ++ x ++ f) := by
  unfold Instr.StandsFor
  revert panel x f
  decide

/-- By the device code: 00, 20 to 27, or external (R179). -/
theorem decodeIot_standsFor {w : Word} (panel : Bool) (h0 : bits3 w 0 = 6) :
    (decodeIot panel w).StandsFor panel w := by
  by_cases hint : internalDevice (deviceCode w) = true
  · by_cases hd : deviceCode w = 0
    · have hw := decodeDevice00_standsFor panel (bits3 w 9)
      rwa [iotWord_eq_iff.2 ⟨h0, hd, rfl⟩, ← decodeIot_device00 panel hd] at hw
    · have hx := (internalDevice_iff.1 hint).resolve_left hd
      rw [deviceCode_low] at hx
      have hw := decodeDevice2x_standsFor panel (bits3 w 6) (bits3 w 9)
      rwa [device2xWord_eq_iff.2 ⟨h0, hx, rfl, rfl⟩, ← decodeIot_device2x panel hd hint] at hw
  · rw [decodeIot_external panel hint]
    exact ⟨iotWord_eq_iff.2 ⟨h0, rfl, rfl⟩, Instr.wellFormed_iot.2 hint, rfl⟩

/-- By the opcode (R52), and for opcode 7 by the two bits that tell the operate groups apart. -/
theorem decodeWord_standsFor (panel : Bool) (w : Word) : (decodeWord panel w).StandsFor panel w := by
  have hops : ∀ op : Field, op.toNat < 6 ∨ op = 6 ∨ op = 7 := by decide
  rcases hops (bits3 w 0) with h | h | h
  · exact decodeWord_memRef_standsFor panel h
  · rw [decodeWord_iot panel h]
    exact decodeIot_standsFor panel h
  · cases h3 : bit w 3 with
    | false =>
      rw [decodeWord_group1 panel h h3]
      exact decodeGroup1_standsFor panel h h3
    | true =>
      cases h11 : bit w 11 with
      | false =>
        rw [decodeWord_group2 panel h h3 h11]
        exact decodeGroup2_standsFor panel h h3 h11
      | true =>
        rw [decodeWord_group3 panel h h3 h11]
        exact decodeGroup3_standsFor panel h h3 h11

/-- Settles O2: the instruction a number of twelve bits decodes to stands for its word (`decodeWord_standsFor`). -/
theorem everyTwelveBitWordDecodesToItsOwnInstruction : Obligations.EveryTwelveBitWordDecodesToItsOwnInstruction := by
  intro panel n
  constructor
  · intro hn
    obtain ⟨henc, hwf, hmode⟩ := decodeWord_standsFor panel (BitVec.ofNat 12 n)
    refine ⟨decodeWord panel (BitVec.ofNat 12 n), if_pos hn, ?_, hwf, hmode⟩
    rw [henc, BitVec.toNat_ofNat, Nat.mod_eq_of_lt hn]
  · intro hn
    exact if_neg (Nat.not_lt.2 hn)

/-- Settles O3. -/
theorem handWrittenWordsDecode : Obligations.HandWrittenWordsDecode := by
  unfold Obligations.HandWrittenWordsDecode
  decide

/-! ### The mode -/

theorem decodeDevice00_modes {f : Field} (h0 : f ≠ 0) (h3 : f ≠ 3) (h4 : f ≠ 4) :
    decodeDevice00 false f = decodeDevice00 true f := by
  revert f
  decide

/-- Outside device code 00 an IOT word is decoded alike in both modes (R59). -/
theorem decodeIot_modes {w : Word} (h : deviceCode w ≠ 0) : decodeIot false w = decodeIot true w := by
  rw [decodeIot, decodeIot, if_neg h, if_neg h]

/-- Settles O4: the mode is looked at only in the words of device code 00, there only for the digits 0, 3 and 4, and
device code and digit make the word. -/
theorem threeWordsDependOnTheMode : Obligations.ThreeWordsDependOnTheMode := by
  refine ⟨by decide, fun w h0 h3 h4 => ?_⟩
  by_cases hop : bits3 w 0 = 6
  · rw [decodeWord_iot false hop, decodeWord_iot true hop]
    by_cases hd : deviceCode w = 0
    · have hw : 0b110#3 ++ (0 : BitVec 6) ++ bits3 w 9 = w := iotWord_eq_iff.2 ⟨hop, hd, rfl⟩
      rw [decodeIot_device00 false hd, decodeIot_device00 true hd]
      apply decodeDevice00_modes <;> intro hf <;> rw [hf] at hw
      · exact h0 hw.symm
      · exact h3 hw.symm
      · exact h4 hw.symm
    · exact decodeIot_modes hd
  · exact decodeWord_of_not_iot hop false true

end Sys2Proof
end

section
/-! The memory reference instructions (R64 to R72): what acknowledged bus operations do to memory and to the record of
the environment is said once (`AfterBus`), finding the effective address is the first part of each instruction
(`State.PointerFound`), and its operation on the operand is the second. -/

namespace Sys2Proof.Machine

/-! ### After acknowledged bus operations -/

/-- What a run of acknowledged memory operations does outside the registers: the environment's lists are used up, memory
stays canonical, and only the stored words and those DMA writes can change. -/
structure AfterBus (stored : List Addr) (gaps acks : Nat) (s t : State) : Prop where
  env : EnvAfter gaps acks s t
  wf : s.mem.wf = true → t.mem.wf = true
  kept : MemoryKeptExcept stored s t

theorem AfterBus.refl (s : State) : AfterBus [] 0 0 s s :=
  ⟨EnvAfter.refl s, id, fun _ _ _ => rfl⟩

/-- Gaps only use up what the DMA device is listed to do. -/
theorem EnvAfter.dmaMayWrite {g n : Nat} {s t : State} (h : EnvAfter g n s t) {a : Addr} (ha : t.dmaMayWrite a) :
    s.dmaMayWrite a := by
  obtain ⟨gap, hgap, hv⟩ := ha
  rw [h.dma] at hgap
  exact ⟨gap, List.mem_of_mem_drop hgap, hv⟩

theorem AfterBus.trans {l l' : List Addr} {g g' n n' : Nat} {s t u : State} (h : AfterBus l g n s t)
    (h' : AfterBus l' g' n' t u) : AfterBus (l' ++ l) (g + g') (n + n') s u where
  env := h.env.trans h'.env
  wf := h'.wf ∘ h.wf
  kept a ha hd := by
    rw [List.mem_append, not_or] at ha
    obtain ⟨hnew, hold⟩ := ha
    exact (h'.kept a hnew fun ht => hd (h.env.dmaMayWrite ht)).trans (h.kept a hold hd)

/-- Registers do not matter. -/
theorem AfterBus.of_eq {l : List Addr} {g n : Nat} {s t u : State} (h : AfterBus l g n s t) (he : u.env = t.env)
    (hm : u.mem = t.mem) (hp : u.platform = t.platform) : AfterBus l g n s u where
  env := h.env.of_env rfl he
  wf := hm ▸ h.wf
  kept a ha hd := by
    rw [State.read, hm, hp]
    exact h.kept a ha hd

theorem State.dmaGap_afterBus (s : State) : AfterBus [] 1 0 s s.dmaGap :=
  ⟨s.dmaGap_envAfter, State.dmaGap_wf, fun _ _ hd => State.dmaGap_read hd⟩

theorem State.takeAck_afterBus (s : State) : AfterBus [] 0 1 s s.takeAck :=
  ⟨s.takeAck_envAfter, id, fun _ _ _ => rfl⟩

theorem State.write_afterBus (s : State) (a : Addr) (v : Word) : AfterBus [a] 0 0 s (s.write a v) :=
  ⟨(EnvAfter.refl s).of_env rfl rfl, Memory.write_wf,
    fun _ hb _ => State.read_write_other fun e => hb (List.mem_singleton.mpr e)⟩

/-- One acknowledged read after its gap. -/
theorem State.busRead_afterBus (s : State) : AfterBus [] 1 1 s s.dmaGap.takeAck :=
  s.dmaGap_afterBus.trans s.dmaGap.takeAck_afterBus

/-- `t` is what one gap and `n` acknowledged operations leave, the last of them the store of `v` in the word `a`. -/
structure State.StoredAfter (s : State) (n : Nat) (a : Addr) (v : Word) (t : State) : Prop where
  frame : t = { s with mem := t.mem, env := t.env }
  after : AfterBus [a] 1 n s t
  stored : s.mem.wf = true → s.platform.kindOf a = .ram → t.read a = v

/-- One acknowledged write after its gap. -/
theorem State.busWrite_storedAfter (s : State) (a : Addr) (v : Word) :
    s.StoredAfter 1 a v (s.dmaGap.takeAck.write a v) where
  frame := rfl
  after := s.busRead_afterBus.trans (State.write_afterBus _ a v)
  stored hwf hram := State.read_write_same (State.dmaGap_wf hwf) hram

/-- One acknowledged read-modify-write after its gap. -/
theorem State.busIncrement_storedAfter (s : State) (a : Addr) (v : Word) :
    s.StoredAfter 2 a v (s.dmaGap.takeAck.takeAck.write a v) where
  frame := rfl
  after := (s.busRead_afterBus.trans (State.takeAck_afterBus _)).trans (State.write_afterBus _ a v)
  stored hwf hram := State.read_write_same (State.dmaGap_wf hwf) hram

/-! ### The effective address, found -/

/-- The effective address is found: it is `ea`, `t` is the state then, and an autoindex pointer holds it (R64). -/
structure State.PointerFound (s : State) (i p : Bool) (a : BitVec 7) (ea : Word) (t : State) : Prop where
  found : s.effectiveAddress i p a = .done ea t
  frame : t = { s with mem := t.mem, env := t.env }
  after : AfterBus (s.pointerStored i p a) (State.pointerGaps i) (s.pointerAcks i p a) s t
  pointer : ∀ b ∈ s.pointerStored i p a, s.mem.wf = true → s.platform.kindOf b = .ram →
    t.read b = ea ∧ (¬ s.dmaMayWrite b → ea = s.read b + 1)

/-- Where the pointer's operations are acknowledged and `n` more, the address is found and `n` operations may follow. -/
theorem State.exists_pointerFound {s : State} {i p : Bool} {a : BitVec 7} {n : Nat}
    (h : s.Acknowledges (s.pointerAcks i p a + n)) : ∃ ea t, s.PointerFound i p a ea t ∧ t.Acknowledges n := by
  obtain ⟨ea, t, found, frame, env, -, wf, kept, pointer⟩ :=
    State.effectiveAddress_done i p a (h.mono (Nat.le_add_right _ n))
  exact ⟨ea, t, ⟨found, frame, ⟨env, wf, kept⟩, pointer⟩, h.drop env.acks⟩

section
variable {s t u : State} {i p : Bool} {a : BitVec 7} {ea : Word} {l : List Addr} {g n : Nat}

theorem State.PointerFound.busOnly (h : s.PointerFound i p a ea t) : s.BusOnly t :=
  .of_frame h.frame

/-- The operand of AND, TAD, ISZ and DCA: indirect in the data space, direct in the instruction space (R65). -/
theorem State.PointerFound.operandAddr (h : s.PointerFound i p a ea t) :
    s.operandAddr i p a = .done (if i then t.dataAddr ea else t.instrAddr ea) t :=
  State.operandAddr_done h.found

theorem State.PointerFound.ram_iff (h : s.PointerFound i p a ea t) (b : Addr) :
    t.platform.kindOf b = .ram ↔ s.platform.kindOf b = .ram := by
  rw [h.busOnly.platform]

/-- An autoindex pointer keeps the effective address through the operations that follow, unless they store to it. -/
theorem State.PointerFound.advanced (h : s.PointerFound i p a ea t) (hu : AfterBus l g n t u) :
    PointerAdvanced l s u i p a := by
  intro b hb hwf hram hdma hl
  obtain ⟨hread, hinc⟩ := h.pointer b hb hwf hram
  have hkept : u.read b = ea := (hu.kept b hl fun ht => hdma (h.after.env.dmaMayWrite ht)).trans hread
  exact ⟨by rw [hkept, h.found, Bus.getD_done], by rw [hkept, hinc hdma]⟩

/-- The clauses on the environment and on memory that the six statements share, given what follows the effective
address. -/
theorem State.PointerFound.andThen (h : s.PointerFound i p a ea t) (hu : AfterBus l g n t u) :
    EnvAfter (State.pointerGaps i + g) (s.pointerAcks i p a + n) s u ∧ PointerAdvanced l s u i p a ∧
      MemoryKeptExcept (l ++ s.pointerStored i p a) s u :=
  ⟨(h.after.trans hu).env, h.advanced hu, (h.after.trans hu).kept⟩

end

/-! ### The instruction address -/

/-- The current page and the seven bits of the instruction, side by side (R64). -/
theorem State.instructionAddress_true (s : State) (a : BitVec 7) :
    s.instructionAddress true a = s.ol.extractLsb' 7 5 ++ a := by
  have hmask : ∀ j < 12, (0o7600 : Word).getLsbD j = decide (7 ≤ j) := by decide
  apply BitVec.eq_of_getLsbD_eq
  intro j hj
  rw [State.instructionAddress, if_pos rfl, BitVec.getLsbD_or, BitVec.getLsbD_and, hmask j hj, BitVec.getLsbD_append]
  by_cases h : j < 7
  · simp [h, hj]
  · have hle : 7 ≤ j := by omega
    simp [h, hj, hle]
    omega

theorem State.instructionAddress_toNat (s : State) (p : Bool) (a : BitVec 7) :
    (s.instructionAddress p a).toNat = (if p then s.ol.toNat / 128 * 128 else 0) + a.toNat := by
  have ha := a.isLt
  have hol := s.ol.isLt
  cases p
  case false => simp [State.instructionAddress]; omega
  case true =>
    rw [s.instructionAddress_true, BitVec.toNat_append, ← Nat.shiftLeft_add_eq_or_of_lt ha]
    simp [Nat.shiftLeft_eq, Nat.shiftRight_eq_div_pow]
    omega

/-! ### Settled: the effective address and the operand -/

/-- A pointer outside the autoindex locations gives its word (R64). -/
theorem State.effectiveAddress_pointer {s : State} {p : Bool} {a : BitVec 7}
    (hia : ¬ (8 ≤ (s.instructionAddress p a).toNat ∧ (s.instructionAddress p a).toNat ≤ 15)) (h : s.Acknowledges 1) :
    s.effectiveAddress true p a =
      .done (s.dmaGap.read (s.instrAddr (s.instructionAddress p a))) s.dmaGap.takeAck := by
  rw [← autoindex_iff, Bool.not_eq_true] at hia
  rw [← State.busRead_done _ h]
  simp [State.effectiveAddress, hia]

/-- An autoindex location gives its word plus one and is left holding it (R64). -/
theorem State.effectiveAddress_autoindex {s : State} {p : Bool} {a : BitVec 7}
    (hia : 8 ≤ (s.instructionAddress p a).toNat ∧ (s.instructionAddress p a).toNat ≤ 15) (h : s.Acknowledges 2) :
    s.effectiveAddress true p a = .done (s.dmaGap.read (s.instrAddr (s.instructionAddress p a)) + 1)
      (s.dmaGap.takeAck.takeAck.write (s.instrAddr (s.instructionAddress p a))
        (s.dmaGap.read (s.instrAddr (s.instructionAddress p a)) + 1)) := by
  rw [← autoindex_iff] at hia
  rw [← State.busIncrement_done _ h]
  simp [State.effectiveAddress, hia]

/-- Settles O23: the three forms of the effective address, then the operand found through it or not reached. -/
theorem effectiveAddressForms : Obligations.EffectiveAddressForms := by
  intro s p a
  refine ⟨s.instructionAddress_toNat p a, rfl, fun hia h => ?pointer, fun hia h => ?autoindex,
    fun i ea t he => ?operand, fun i t he => ?hung⟩
  case pointer =>
    exact ⟨_, State.effectiveAddress_pointer hia h, rfl, s.busRead_afterBus.env⟩
  case autoindex =>
    exact ⟨_, State.effectiveAddress_autoindex hia h, rfl, (s.busIncrement_storedAfter _ _).after.env,
      (s.busIncrement_storedAfter _ _).stored, fun b hb => State.read_write_other hb⟩
  case operand =>
    have hb := State.operandAddr_done he
    exact ⟨hb, fun ht => ⟨_, State.operand_done hb ht, rfl, t.busRead_afterBus.env⟩⟩
  case hung =>
    have hb : s.operandAddr i p a = .hung t := by rw [State.operandAddr, he, Bus.andThen_hung]
    exact ⟨hb, by rw [State.operand, hb, Bus.andThen_hung]⟩

/-! ### AND, TAD, ISZ and DCA on the operand found -/

section
variable {s t : State} {i p : Bool} {a : BitVec 7} {b : Addr}

theorem exec_and_done (hb : s.operandAddr i p a = .done b t) (h : t.Acknowledges 1) :
    ∃ u, exec (.and i p a) s = .next u ∧
      u = { t with ac := t.ac &&& (s.operand i p a).getD 0, mem := u.mem, env := u.env } ∧ AfterBus [] 1 1 t u := by
  rw [exec_and, State.operand_done hb h]
  exact ⟨_, rfl, rfl, t.busRead_afterBus.of_eq rfl rfl rfl⟩

theorem exec_tad_done (hb : s.operandAddr i p a = .done b t) (h : t.Acknowledges 1) :
    ∃ u, exec (.tad i p a) s = .next u ∧
      u = { t.addAc ((s.operand i p a).getD 0) with mem := u.mem, env := u.env } ∧ AfterBus [] 1 1 t u := by
  rw [exec_tad, State.operand_done hb h]
  exact ⟨_, rfl, rfl, t.busRead_afterBus.of_eq rfl rfl rfl⟩

/-- Adding one gives zero from 7777 only, which is when ISZ skips (R69). -/
theorem add_one_eq_zero_iff (w : Word) : w + 1 = 0 ↔ w = 0o7777 := by
  bv_omega

/-- ISZ leaves the operand word incremented, and skips where it was 7777 (R69). -/
theorem exec_isz_done (hb : s.operandAddr i p a = .done b t) (h : t.Acknowledges 2) :
    ∃ u, exec (.isz i p a) s = .next u ∧
      u = { t with
        pc := if (s.operand i p a).getD 0 = 0o7777 then t.pc + 1 else t.pc, mem := u.mem, env := u.env } ∧
      AfterBus [b] 1 2 t u ∧
      (t.mem.wf = true → t.platform.kindOf b = .ram → u.read b = (s.operand i p a).getD 0 + 1) := by
  rw [exec_isz, State.operand_done hb (h.mono (by decide)), hb, Bus.andThen_done, State.busIncrement_done b h,
    Bus.finish_done, Bus.getD_done]
  obtain ⟨hframe, hafter, hstored⟩ := t.busIncrement_storedAfter b (t.dmaGap.read b + 1)
  generalize t.dmaGap.takeAck.takeAck.write b (t.dmaGap.read b + 1) = w at *
  refine ⟨_, rfl, ?_, hafter.of_eq rfl rfl rfl, hstored⟩
  simp only [State.skipIf, beq_iff_eq, add_one_eq_zero_iff]
  rw [hframe]

theorem exec_dca_done (hb : s.operandAddr i p a = .done b t) (h : t.Acknowledges 1) :
    ∃ u, exec (.dca i p a) s = .next u ∧ u = { t with ac := 0, mem := u.mem, env := u.env } ∧ AfterBus [b] 1 1 t u ∧
      (t.mem.wf = true → t.platform.kindOf b = .ram → u.read b = t.ac) := by
  rw [exec_dca, hb, Bus.andThen_done, State.busWrite_done b _ h, Bus.finish_done]
  obtain ⟨hframe, hafter, hstored⟩ := t.busWrite_storedAfter b t.ac
  generalize t.dmaGap.takeAck.write b t.ac = w at *
  refine ⟨_, rfl, ?_, hafter.of_eq rfl rfl rfl, hstored⟩
  rw [hframe]
  rfl

end

/-! ### Settled: AND, TAD, ISZ and DCA -/

/-- Settles O24: the read of the operand follows the effective address, and AC keeps the bits set in both. -/
theorem andResult : Obligations.AndResult := by
  intro s i p a hack
  obtain ⟨ea, t, hf, ht⟩ := State.exists_pointerFound hack
  obtain ⟨u, hexec, hframe, hafter⟩ := exec_and_done hf.operandAddr ht
  refine ⟨u, hexec, fun k => ?ac, ?frame, hf.andThen hafter⟩
  case ac =>
    rw [hframe, ← hf.busOnly.ac]
    exact BitVec.getLsbD_and
  case frame =>
    rw [hframe, hf.frame]

/-- L and AC after an addition, as one 13-bit number (R68). -/
theorem State.addAc_cons (s : State) (v : Word) :
    BitVec.cons (s.addAc v).l (s.addAc v).ac = BitVec.cons s.l s.ac + v.setWidth 13 := by
  have hac := s.ac.isLt
  have hv := v.isLt
  apply BitVec.eq_of_toNat_eq
  rw [State.addAc, BitVec.toNat_add, BitVec.toNat_cons', BitVec.toNat_cons', BitVec.toNat_add, BitVec.toNat_setWidth]
  by_cases hc : 4096 ≤ s.ac.toNat + v.toNat
  case pos => cases s.l <;> simp [carryOut, hc] <;> omega
  case neg => cases s.l <;> simp [carryOut, hc] <;> omega

/-- Settles O25: the read of the operand follows the effective address, and the carry goes into L. -/
theorem tadAddsToLinkAndAc : Obligations.TadAddsToLinkAndAc := by
  intro s i p a hack w
  obtain ⟨ea, t, hf, ht⟩ := State.exists_pointerFound hack
  obtain ⟨u, hexec, hframe, hafter⟩ := exec_tad_done hf.operandAddr ht
  refine ⟨u, hexec, ?sum, ?ac, ?frame, hf.andThen hafter⟩
  case sum =>
    rw [hframe, ← hf.busOnly.ac, ← hf.busOnly.l]
    exact t.addAc_cons w
  case ac =>
    rw [hframe, ← hf.busOnly.ac]
    exact BitVec.toNat_add _ _
  case frame =>
    rw [hframe, hf.frame]
    rfl

/-- Settles O26: the operand's read-modify-write follows the effective address. -/
theorem iszIncrementsAndSkipsOnZero : Obligations.IszIncrementsAndSkipsOnZero := by
  intro s i p a hack b w
  obtain ⟨ea, t, hf, ht⟩ := State.exists_pointerFound hack
  have hb : s.operandAddr i p a = .done b t := by simp [b, hf.operandAddr]
  obtain ⟨u, hexec, hframe, hafter, hstored⟩ := exec_isz_done hb ht
  obtain ⟨henv, hpointer, hkept⟩ := hf.andThen hafter
  refine ⟨u, hexec, ?frame, henv, fun hwf hram => hstored (hf.after.wf hwf) ((hf.ram_iff b).mpr hram), hpointer, hkept⟩
  case frame =>
    rw [hframe, hf.frame]

/-- Settles O27: the store of AC follows the effective address. -/
theorem dcaStoresAndClears : Obligations.DcaStoresAndClears := by
  intro s i p a hack b
  obtain ⟨ea, t, hf, ht⟩ := State.exists_pointerFound hack
  have hb : s.operandAddr i p a = .done b t := by simp [b, hf.operandAddr]
  obtain ⟨u, hexec, hframe, hafter, hstored⟩ := exec_dca_done hb ht
  obtain ⟨henv, hpointer, hkept⟩ := hf.andThen hafter
  refine ⟨u, hexec, ?frame, henv, fun hwf hram => ?stored, hpointer, hkept⟩
  case frame =>
    rw [hframe, hf.frame]
  case stored =>
    rw [← hf.busOnly.ac]
    exact hstored (hf.after.wf hwf) ((hf.ram_iff b).mpr hram)

/-! ### JMS and JMP at the effective address found -/

section
variable {s t : State} {i p : Bool} {a : BitVec 7} {ea : Word}

theorem exec_jmp_found (he : s.effectiveAddress i p a = .done ea t) :
    exec (.jmp i p a) s = .next { t.fieldTransfer with pc := ea } := by
  rw [exec_jmp, he, Bus.finish_done]

/-- Apart from the slot of the return address, the two orders of JMS come to the same state (R71, D5). -/
theorem exec_jms_found (he : s.effectiveAddress i p a = .done ea t) (h : t.Acknowledges 1) :
    exec (.jms i p a) s =
      .next { (t.dmaGap.takeAck.write (s.returnSlot i p a) t.pc).fieldTransfer with pc := ea + 1 } := by
  have h' : t.fieldTransfer.Acknowledges 1 := h.of_acks rfl
  rw [exec_jms, State.returnSlot, he, Bus.finish_done, State.busWrite_done _ _ h, State.busWrite_done _ _ h']
  cases hp : t.platform.jmsStoreAfterTransfer <;> simp [hp]

theorem exec_jms_done (he : s.effectiveAddress i p a = .done ea t) (h : t.Acknowledges 1) :
    ∃ u, exec (.jms i p a) s = .next u ∧
      u = { t.fieldTransfer with pc := ea + 1, mem := u.mem, env := u.env } ∧
      AfterBus [s.returnSlot i p a] 1 1 t u ∧
      (t.mem.wf = true → t.platform.kindOf (s.returnSlot i p a) = .ram → u.read (s.returnSlot i p a) = t.pc) := by
  rw [exec_jms_found he h]
  obtain ⟨hframe, hafter, hstored⟩ := t.busWrite_storedAfter (s.returnSlot i p a) t.pc
  generalize t.dmaGap.takeAck.write (s.returnSlot i p a) t.pc = w at *
  refine ⟨_, rfl, ?_, hafter.of_eq rfl rfl rfl, hstored⟩
  rw [hframe]
  rfl

theorem State.PointerFound.returnSlot (h : s.PointerFound i p a ea t) : s.returnSlot i p a =
    if s.platform.jmsStoreAfterTransfer then s.fieldTransfer.instrAddr ea else s.instrAddr ea := by
  rw [State.returnSlot, h.found, Bus.state_done, h.frame]
  rfl

end

/-! ### Settled: JMS and JMP -/

/-- Settles O28: the store of the return address follows the effective address, in the slot of the platform's order. -/
theorem jmsStoresTheReturnAddress : Obligations.JmsStoresTheReturnAddress := by
  intro s i p a hack ea slot
  obtain ⟨ea', t, hf, ht⟩ := State.exists_pointerFound hack
  obtain rfl : ea = ea' := by simp [ea, hf.found]
  obtain ⟨u, hexec, hframe, hafter, hstored⟩ := exec_jms_done hf.found ht
  obtain ⟨henv, hpointer, hkept⟩ := hf.andThen hafter
  refine ⟨u, hexec, ?frame, henv, fun hp => ?after, fun hp => ?before, fun hwf hram => ?stored, hpointer, hkept⟩
  case frame =>
    rw [hframe, hf.frame]
    rfl
  case after =>
    have hslot : slot = s.fieldTransfer.instrAddr ea := by simp [slot, hf.returnSlot, hp]
    rw [hslot, hframe, hf.frame]
    rfl
  case before => simp [slot, hf.returnSlot, hp]
  case stored =>
    rw [← hf.busOnly.pc]
    exact hstored (hf.after.wf hwf) ((hf.ram_iff slot).mpr hram)

/-- Settles O29: nothing but the field transfer follows the effective address. -/
theorem jmpContinuesAtTheEffectiveAddress : Obligations.JmpContinuesAtTheEffectiveAddress := by
  intro s i p a hack
  obtain ⟨ea, t, hf, -⟩ := State.exists_pointerFound (n := 0) hack
  have hafter : AfterBus [] 0 0 t { t.fieldTransfer with pc := ea } := (AfterBus.refl t).of_eq rfl rfl rfl
  refine ⟨_, exec_jmp_found hf.found, ?frame, hf.andThen hafter⟩
  case frame =>
    rw [hf.found, hf.frame]
    rfl

/-! ### Settled: the ways out of the panel and of an interrupt -/

/-- JMP I 0000 with no DMA: PC is loaded from word 0000 of the instruction space, found before the field transfer. -/
theorem exec_jmp_indirect_zero {s u : State} (hjmp : exec (.jmp true false 0) s = .next u) (hdma : s.env.dma = [])
    (h : s.Acknowledges 1) : u = { s.takeAck.fieldTransfer with pc := s.read (s.instrAddr 0) } := by
  have hia : s.instructionAddress false 0 = 0 := rfl
  have he := State.effectiveAddress_pointer (s := s) (p := false) (a := 0) (by rw [hia]; decide) h
  rw [hia, State.dmaGap_idle hdma] at he
  rw [exec_jmp_found he] at hjmp
  exact (Host.Outcome.next.inj hjmp).symm

theorem exec_pex (s : State) : exec .pex s = .next { s with pexff := true, pwron := false, pnltrp := false } := rfl
theorem exec_rmf (s : State) : exec .rmf s = .next { s with ib := s.isf, df := s.dsf, iiff := true } := rfl
theorem exec_ion (s : State) : exec .ion s = .next { s with ieff := true, nogrant := true } := rfl

/-- Settles O57: with FZ set the pointer of JMP I 0000 is panel (0, 0000), and the transfer finds the pending exit. -/
theorem panelExitSequence : Obligations.PanelExitSequence := by
  intro s t u hctrl hfz hdma hack hpex hjmp
  rw [exec_pex] at hpex
  obtain rfl := Host.Outcome.next.inj hpex
  obtain rfl := exec_jmp_indirect_zero hjmp hdma (hack.of_acks rfl)
  have hpointer : s.instrAddr 0 = ⟨.panel, 0, 0⟩ := by
    simp [State.instrAddr, State.ownSpace_of_panel hctrl, hctrl, hfz]
  have hmode : (s.ctrlff && !true) = false := by simp
  have hdelay : (s.nogrant || true) = true := by simp
  exact ⟨hmode, rfl, hdelay, rfl, rfl, congrArg s.read hpointer, rfl, rfl, rfl, rfl, rfl⟩

/-- Settles O58: the grant has stored PC where JMP I 0000 finds it, and the save fields hold the program's fields. -/
theorem interruptReturnSequence : Obligations.InterruptReturnSequence := by
  intro s t u v hctrl hiiff hib hdma hack hwf hram hrmf hion hjmp
  rw [State.interruptGrant_done (hack.mono (by decide)), exec_rmf] at hrmf
  obtain rfl := Host.Outcome.next.inj hrmf
  rw [exec_ion] at hion
  obtain rfl := Host.Outcome.next.inj hion
  have hack' : s.takeAck.Acknowledges 1 := hack.drop (m := 1) (by simp)
  obtain rfl := exec_jmp_indirect_zero hjmp hdma (hack'.of_acks rfl)
  have hpointer : ({ s with ifr := 0 } : State).instrAddr 0 = ⟨.main, 0, 0⟩ := by
    simp [State.instrAddr, State.ownSpace, hctrl]
  have hstored : (s.takeAck.write ⟨.main, 0, 0⟩ s.pc).read ⟨.main, 0, 0⟩ = s.pc := State.read_write_same hwf hram
  have hmode : (s.ctrlff && !s.pexff) = false := by simp [hctrl]
  exact ⟨(congrArg (s.takeAck.write ⟨.main, 0, 0⟩ s.pc).read hpointer).trans hstored, rfl, hib.symm, rfl, rfl, rfl,
    hmode, rfl, rfl, rfl⟩

end Sys2Proof.Machine
end

section
/-! The operate instructions (R73 to R134): L and AC as one number of 13 bits, which the group 1 words add to and rotate
(R73, R74), and each listed operate word as the case of its group's generic rule that its bits select (R97, R124). -/

namespace Sys2Proof.Machine

/-! ### Rotations of a bit vector -/

theorem rotateLeft_rotateLeft {w : Nat} (x : BitVec w) (m n : Nat) :
    (x.rotateLeft m).rotateLeft n = x.rotateLeft (m + n) := by
  apply BitVec.eq_of_getMsbD_eq
  intro i hi
  have hmod : (n + i) % w < w := Nat.mod_lt _ (by omega)
  simp [BitVec.getMsbD_rotateLeft, hi, hmod, Nat.add_assoc]

theorem rotateLeft_width {w : Nat} (x : BitVec w) : x.rotateLeft w = x := by
  apply BitVec.eq_of_getMsbD_eq
  intro i hi
  simp [BitVec.getMsbD_rotateLeft, hi, Nat.mod_eq_of_lt hi]

theorem rotateLeft_zero {w : Nat} (x : BitVec w) : x.rotateLeft 0 = x := by
  rw [← Nat.mod_self w, BitVec.rotateLeft_mod_eq_rotateLeft, rotateLeft_width]

/-- A rotation exchanges the two parts of a bit vector. -/
theorem rotateLeft_eq_append {m k : Nat} (x : BitVec (m + k)) (hm : 0 < m) :
    x.rotateLeft k = x.extractLsb' 0 m ++ x.extractLsb' m k := by
  have hk : k % (m + k) = k := Nat.mod_eq_of_lt (by omega)
  ext i hi
  grind

theorem cons_rotateLeft_one (k : Bool) (a : Word) :
    (BitVec.cons k a).rotateLeft 1 = BitVec.cons (bit a 0) (a.extractLsb' 0 11 ++ BitVec.ofBool k) := by
  ext i hi
  grind [bit]

theorem cons_rotateLeft_two (k : Bool) (a : Word) : (BitVec.cons k a).rotateLeft 2 =
    BitVec.cons (bit a 1) (a.extractLsb' 0 10 ++ BitVec.ofBool k ++ BitVec.ofBool (bit a 0)) := by
  ext i hi
  grind [bit]

theorem cons_rotateRight_one (k : Bool) (a : Word) :
    (BitVec.cons k a).rotateRight 1 = BitVec.cons (bit a 11) (BitVec.ofBool k ++ a.extractLsb' 1 11) := by
  ext i hi
  grind [bit]

theorem cons_rotateRight_two (k : Bool) (a : Word) : (BitVec.cons k a).rotateRight 2 =
    BitVec.cons (bit a 10) (BitVec.ofBool (bit a 11) ++ BitVec.ofBool k ++ a.extractLsb' 2 10) := by
  ext i hi
  grind [bit]

theorem rotateRight_one_rotateRight_one (x : BitVec 13) : (x.rotateRight 1).rotateRight 1 = x.rotateRight 2 := by
  ext i hi
  grind

/-! ### L and AC as one number of 13 bits -/

/-- L and AC as the 13-bit number that additions and rotates work on (R68, R74). -/
def State.linkAc (s : State) : BitVec 13 :=
  BitVec.cons s.l s.ac

/-- L and AC loaded from a 13-bit number, everything else kept. -/
def State.withLinkAc (s : State) (x : BitVec 13) : State :=
  { s with ac := x.setWidth 12, l := x.getLsbD 12 }

theorem State.withLinkAc_cons (s : State) (k : Bool) (a : Word) :
    s.withLinkAc (BitVec.cons k a) = { s with ac := a, l := k } := by
  rw [State.withLinkAc, BitVec.setWidth_cons, BitVec.getLsbD_cons, if_pos rfl]

@[simp] theorem State.linkAc_withLinkAc (s : State) (x : BitVec 13) : (s.withLinkAc x).linkAc = x :=
  BitVec.cons_msb_setWidth x

@[simp] theorem State.withLinkAc_withLinkAc (s : State) (x y : BitVec 13) :
    (s.withLinkAc x).withLinkAc y = s.withLinkAc y := rfl

@[simp] theorem State.withLinkAc_linkAc (s : State) : s.withLinkAc s.linkAc = s :=
  s.withLinkAc_cons s.l s.ac

theorem State.linkAc_getLsbD (s : State) : s.linkAc.getLsbD 12 = s.l := by
  rw [State.linkAc, BitVec.getLsbD_cons, if_pos rfl]

theorem State.linkAc_setWidth (s : State) : s.linkAc.setWidth 12 = s.ac :=
  BitVec.setWidth_cons

theorem State.linkAc_extractLsb' (s : State) {i n : Nat} (h : i + n ≤ 12) :
    s.linkAc.extractLsb' i n = s.ac.extractLsb' i n := by
  unfold State.linkAc
  ext j hj
  grind

/-- TAD's addition (`addAc_cons`) is all an addition does (R68). -/
theorem State.addAc_eq_withLinkAc (s : State) (v : Word) : s.addAc v = s.withLinkAc (s.linkAc + v.setWidth 13) := by
  have h : (s.addAc v).linkAc = s.linkAc + v.setWidth 13 := s.addAc_cons v
  rw [← h]
  exact (s.addAc v).withLinkAc_linkAc.symm

/-! ### Each rotate (R74), bit by bit and as a rotation -/

theorem State.byteSwap_eq_rotateLeft (s : State) : s.byteSwap = { s with ac := s.ac.rotateLeft 6 } := by
  have hac : (s.ac &&& 0o77) <<< 6 ||| s.ac >>> 6 = s.ac.rotateLeft 6 := by
    ext i hi
    interval_cases i <;> simp [BitVec.getElem_rotateLeft]
  rw [State.byteSwap, hac]

theorem State.byteSwap_bits (s : State) :
    s.byteSwap = { s with ac := s.ac.extractLsb' 0 6 ++ s.ac.extractLsb' 6 6 } := by
  rw [State.byteSwap_eq_rotateLeft, rotateLeft_eq_append (m := 6) (k := 6) s.ac (by decide)]

theorem State.rotateThree_eq_rotateLeft (s : State) : s.rotateThree = { s with ac := s.ac.rotateLeft 3 } := rfl

theorem State.rotateThree_bits (s : State) :
    s.rotateThree = { s with ac := s.ac.extractLsb' 0 9 ++ s.ac.extractLsb' 9 3 } := by
  rw [State.rotateThree_eq_rotateLeft, rotateLeft_eq_append (m := 9) (k := 3) s.ac (by decide)]

theorem State.rotateLeft_bits (s : State) :
    s.rotateLeft = { s with ac := s.ac.extractLsb' 0 11 ++ BitVec.ofBool s.l, l := bit s.ac 0 } := by
  have hac : s.ac <<< 1 ||| bitWord s.l = s.ac.extractLsb' 0 11 ++ BitVec.ofBool s.l := by
    ext i hi
    grind [bitWord]
  rw [State.rotateLeft, hac]

theorem State.rotateRight_bits (s : State) :
    s.rotateRight = { s with ac := BitVec.ofBool s.l ++ s.ac.extractLsb' 1 11, l := bit s.ac 11 } := by
  have hac : s.ac >>> 1 ||| bitWord s.l <<< 11 = BitVec.ofBool s.l ++ s.ac.extractLsb' 1 11 := by
    ext i hi
    grind [bitWord]
  rw [State.rotateRight, hac]

theorem State.rotateLeft_eq_withLinkAc (s : State) : s.rotateLeft = s.withLinkAc (s.linkAc.rotateLeft 1) := by
  rw [State.rotateLeft_bits, State.linkAc, cons_rotateLeft_one, State.withLinkAc_cons]

theorem State.rotateRight_eq_withLinkAc (s : State) : s.rotateRight = s.withLinkAc (s.linkAc.rotateRight 1) := by
  rw [State.rotateRight_bits, State.linkAc, cons_rotateRight_one, State.withLinkAc_cons]

/-- Any number of RALs is one rotation of L and AC. -/
theorem State.rotateLeft_iterate (s : State) (n : Nat) :
    State.rotateLeft^[n] s = s.withLinkAc (s.linkAc.rotateLeft n) := by
  induction n with
  | zero => rw [rotateLeft_zero, State.withLinkAc_linkAc, Function.iterate_zero_apply]
  | succ n ih =>
    rw [Function.iterate_succ_apply', ih, State.rotateLeft_eq_withLinkAc, State.linkAc_withLinkAc,
      State.withLinkAc_withLinkAc, rotateLeft_rotateLeft]

theorem State.rotateLeft_rotateLeft_eq_withLinkAc (s : State) :
    s.rotateLeft.rotateLeft = s.withLinkAc (s.linkAc.rotateLeft 2) :=
  s.rotateLeft_iterate 2

theorem State.rotateRight_rotateRight_eq_withLinkAc (s : State) :
    s.rotateRight.rotateRight = s.withLinkAc (s.linkAc.rotateRight 2) := by
  rw [State.rotateRight_eq_withLinkAc, State.rotateRight_eq_withLinkAc, State.linkAc_withLinkAc,
    State.withLinkAc_withLinkAc, rotateRight_one_rotateRight_one]

theorem State.rotateLeft_rotateLeft_bits (s : State) : s.rotateLeft.rotateLeft = { s with
    ac := s.ac.extractLsb' 0 10 ++ BitVec.ofBool s.l ++ BitVec.ofBool (bit s.ac 0), l := bit s.ac 1 } := by
  rw [State.rotateLeft_rotateLeft_eq_withLinkAc, State.linkAc, cons_rotateLeft_two, State.withLinkAc_cons]

theorem State.rotateRight_rotateRight_bits (s : State) : s.rotateRight.rotateRight = { s with
    ac := BitVec.ofBool (bit s.ac 11) ++ BitVec.ofBool s.l ++ s.ac.extractLsb' 2 10, l := bit s.ac 10 } := by
  rw [State.rotateRight_rotateRight_eq_withLinkAc, State.linkAc, cons_rotateRight_two, State.withLinkAc_cons]

/-- With L cleared first, zeros are shifted in (R87 to R90). -/
theorem State.clearLink_rotateLeft (s : State) :
    s.clearLink.rotateLeft = { s with ac := s.ac <<< 1, l := bit s.ac 0 } := by
  simp [State.rotateLeft, State.clearLink, bitWord]

theorem State.clearLink_rotateRight (s : State) :
    s.clearLink.rotateRight = { s with ac := s.ac >>> 1, l := bit s.ac 11 } := by
  simp [State.rotateRight, State.clearLink, bitWord]

theorem State.clearLink_rotateLeft_rotateLeft (s : State) : s.clearLink.rotateLeft.rotateLeft =
    { s with ac := (s.ac <<< 2) ||| bitWord (bit s.ac 0), l := bit s.ac 1 } := by
  rw [State.clearLink_rotateLeft]
  simp [State.rotateLeft, bit, ← BitVec.shiftLeft_add]

theorem State.clearLink_rotateRight_rotateRight (s : State) : s.clearLink.rotateRight.rotateRight =
    { s with ac := (s.ac >>> 2) ||| (bitWord (bit s.ac 11) <<< 11), l := bit s.ac 10 } := by
  rw [State.clearLink_rotateRight]
  simp [State.rotateRight, bit, ← BitVec.shiftRight_add]

theorem State.clearAc_rotateLeft (s : State) : s.clearAc.rotateLeft = { s with ac := bitWord s.l, l := false } := by
  simp [State.rotateLeft, State.clearAc, bit]

/-! ### Counting and complementing AC -/

/-- Counting carries out of AC from 7777 only, and the carry complements L (R76). -/
theorem xor_carryOut_one (k : Bool) (w : Word) : (k ^^ carryOut w 1) = if w = 0o7777 then !k else k := by
  have hcarry : carryOut w 1 = true ↔ w = 0o7777 := by
    simp only [carryOut, decide_eq_true_iff]
    bv_omega
  by_cases h : w = 0o7777
  · rw [if_pos h, hcarry.2 h, Bool.xor_true]
  · rw [if_neg h, Bool.eq_false_iff.2 (mt hcarry.1 h), Bool.xor_false]

theorem State.incrementAc_eq (s : State) :
    s.incrementAc = { s with ac := s.ac + 1, l := if s.ac = 0o7777 then !s.l else s.l } := by
  rw [State.incrementAc, State.addAc, xor_carryOut_one]

theorem State.complementAc_eq (s : State) : s.complementAc = { s with ac := 0o7777 - s.ac } := by
  have hac : ~~~s.ac = 0o7777 - s.ac := by bv_omega
  rw [State.complementAc, hac]

/-- Complement and increment is the two's complement (R85). -/
theorem State.complementAc_incrementAc (s : State) :
    s.complementAc.incrementAc = { s with ac := -s.ac, l := if s.ac = 0 then !s.l else s.l } := by
  have hac : 0o7777 - s.ac + 1 = -s.ac := by bv_omega
  have hl : 0o7777 - s.ac = 0o7777 ↔ s.ac = 0 := by bv_omega
  rw [State.complementAc_eq, State.incrementAc_eq]
  simp only [hac, hl]

theorem State.clearAc_complementAc (s : State) : s.clearAc.complementAc = { s with ac := 0o7777 } := by
  have hac : ~~~(0 : Word) = 0o7777 := by decide
  rw [State.complementAc, State.clearAc_ac, hac]
  rfl

/-! ### The generic group 1 word, step by step (R73) -/

theorem State.doIf_clearAc (s : State) (c : Bool) :
    s.doIf c State.clearAc = { s with ac := if c then 0 else s.ac } := by
  cases c <;> rfl

theorem State.doIf_clearLink (s : State) (c : Bool) :
    s.doIf c State.clearLink = { s with l := if c then false else s.l } := by
  cases c <;> rfl

theorem State.doIf_complementAc (s : State) (c : Bool) :
    s.doIf c State.complementAc = { s with ac := s.ac ^^^ if c then 0o7777 else 0 } := by
  cases c with
  | false => simp
  | true =>
    have hac : ~~~s.ac = s.ac ^^^ 0o7777 := BitVec.xor_allOnes.symm
    rw [State.doIf_true, State.complementAc, hac, if_pos rfl]

theorem State.doIf_complementLink (s : State) (c : Bool) :
    s.doIf c State.complementLink = { s with l := s.l ^^ c } := by
  cases c with
  | false => simp
  | true => simp [State.complementLink]

theorem State.doIf_incrementAc (s : State) (c : Bool) :
    s.doIf c State.incrementAc = s.withLinkAc (s.linkAc + if c then 1 else 0) := by
  cases c with
  | false => simp
  | true => exact s.addAc_eq_withLinkAc 1

/-- Everything before the rotate is one addition to the 13 bits of L and AC. -/
theorem State.group1_eq_rotate (s : State) (cla cll cma cml : Bool) (rot : Field) (iac : Bool) :
    s.group1 cla cll cma cml rot iac = (s.withLinkAc (BitVec.cons ((if cll then false else s.l) ^^ cml)
      ((if cla then 0 else s.ac) ^^^ if cma then 0o7777 else 0) + if iac then 1 else 0)).rotate rot := by
  rw [State.group1, State.doIf_clearAc, State.doIf_clearLink, State.doIf_complementAc, State.doIf_complementLink,
    State.doIf_incrementAc]
  rfl

/-- Only the rotate code 111 takes free values (R74, U1). -/
theorem State.rotate_fresh {s : State} {rot : Field} (h : rot ≠ 7) : (s.rotate rot).fresh = s.fresh := by
  have hcodes : rot = 0 ∨ rot = 1 ∨ rot = 2 ∨ rot = 3 ∨ rot = 4 ∨ rot = 5 ∨ rot = 6 := by
    revert rot
    decide
  rcases hcodes with rfl | rfl | rfl | rfl | rfl | rfl | rfl <;> rfl

theorem State.rotate_frame {s : State} {rot : Field} (h : rot ≠ 7) :
    s.rotate rot = { s with ac := (s.rotate rot).ac, l := (s.rotate rot).l } := by
  have hframe : s.rotate rot = { s with ac := _, l := _, fresh := _ } := s.rotate_acLinkOnly rot
  rwa [State.rotate_fresh h] at hframe

/-! ### Settled: group 1 -/

/-- Settles O33: rotate code 111 follows an addition that changes AC and L only. -/
theorem undefinedRotateTouchesOnlyAcAndLink : Obligations.UndefinedRotateTouchesOnlyAcAndLink := by
  intro s cla cll cma cml iac
  refine ⟨_, exec_opr1 .., ?_⟩
  rw [State.group1_eq_rotate]
  rfl

/-- Settles O30: the words are made of clearing, complementing and counting. -/
theorem group1ClearComplementIncrement : Obligations.Group1ClearComplementIncrement := by
  intro s
  refine ⟨rfl, ?iac, rfl, ?cma, ?cia, rfl, rfl, rfl, ?claIac, ?sta, rfl⟩
  case iac => exact congrArg Host.Outcome.next s.incrementAc_eq
  case cma => exact congrArg Host.Outcome.next s.complementAc_eq
  case cia => exact congrArg Host.Outcome.next s.complementAc_incrementAc
  case claIac => exact congrArg Host.Outcome.next s.clearAc.incrementAc_eq
  case sta => exact congrArg Host.Outcome.next s.clearAc_complementAc

/-- Settles O31: each word by the bits of its rotate; BSW twice, thirteen RALs and four R3Ls rotate by a full width. -/
theorem group1Rotates : Obligations.Group1Rotates := by
  intro s
  refine ⟨?bsw, ?ral, ?rtl, ?rar, ?rtr, ?r3l, ?cllRal, ?cllRtl, ?cllRar, ?cllRtr, ?glk, ?bswTwice, ?ralThirteen,
    ?r3lFour⟩
  case bsw => exact congrArg Host.Outcome.next s.byteSwap_bits
  case ral => exact congrArg Host.Outcome.next s.rotateLeft_bits
  case rtl => exact congrArg Host.Outcome.next s.rotateLeft_rotateLeft_bits
  case rar => exact congrArg Host.Outcome.next s.rotateRight_bits
  case rtr => exact congrArg Host.Outcome.next s.rotateRight_rotateRight_bits
  case r3l => exact congrArg Host.Outcome.next s.rotateThree_bits
  case cllRal => exact congrArg Host.Outcome.next s.clearLink_rotateLeft
  case cllRtl => exact congrArg Host.Outcome.next s.clearLink_rotateLeft_rotateLeft
  case cllRar => exact congrArg Host.Outcome.next s.clearLink_rotateRight
  case cllRtr => exact congrArg Host.Outcome.next s.clearLink_rotateRight_rotateRight
  case glk => exact congrArg Host.Outcome.next s.clearAc_rotateLeft
  case bswTwice => simp [State.byteSwap_eq_rotateLeft, rotateLeft_rotateLeft, rotateLeft_width]
  case ralThirteen => rw [State.rotateLeft_iterate, rotateLeft_width, State.withLinkAc_linkAc]
  case r3lFour => simp [State.rotateThree_eq_rotateLeft, rotateLeft_rotateLeft, rotateLeft_width]

/-- Settles O32: `u` is the state before the rotate, whose L and AC are the number `x`. -/
theorem group1Sequence : Obligations.Group1Sequence := by
  intro s cla cll cma cml iac rot hrot a k x
  obtain ⟨u, hu, hx⟩ : ∃ u, u = s.withLinkAc x ∧ u.linkAc = x := ⟨_, rfl, s.linkAc_withLinkAc x⟩
  have hexec : exec (.opr1 cla cll cma cml rot iac) s = .next (u.rotate rot) := by
    rw [exec_opr1, State.group1_eq_rotate, hu]
  have hframe : u.rotate rot = { s with ac := (u.rotate rot).ac, l := (u.rotate rot).l } := by
    rw [State.rotate_frame hrot, hu]
    rfl
  refine ⟨_, hexec, hframe, ?none, ?bsw, ?ral, ?rtl, ?rar, ?rtr, ?r3l⟩ <;> rintro rfl <;> rw [← hx]
  case none => rfl
  case bsw =>
    rw [State.linkAc_getLsbD, u.linkAc_extractLsb' (by decide), u.linkAc_extractLsb' (by decide)]
    exact ⟨rfl, congrArg State.ac u.byteSwap_bits⟩
  case ral => exact (congrArg State.linkAc u.rotateLeft_eq_withLinkAc).trans (u.linkAc_withLinkAc _)
  case rtl => exact (congrArg State.linkAc u.rotateLeft_rotateLeft_eq_withLinkAc).trans (u.linkAc_withLinkAc _)
  case rar => exact (congrArg State.linkAc u.rotateRight_eq_withLinkAc).trans (u.linkAc_withLinkAc _)
  case rtr => exact (congrArg State.linkAc u.rotateRight_rotateRight_eq_withLinkAc).trans (u.linkAc_withLinkAc _)
  case r3l =>
    rw [State.linkAc_getLsbD, State.linkAc_setWidth]
    exact ⟨rfl, rfl⟩

/-! ### The listed words of each group as cases of its generic rule -/

/-- The listed words of group 1 are spelled as the very micro-operations their bits select (R97). -/
theorem exec_decodeGroup1_of_named (s : State) : ∀ w ∈ namedGroup1, exec (decodeGroup1 w) s =
    exec (.opr1 (bit w 4) (bit w 5) (bit w 6) (bit w 7) (bits3 w 8) (bit w 11)) s := by
  simp only [namedGroup1, List.forall_mem_cons, List.not_mem_nil, false_implies, implies_true, and_true]
  and_intros <;> rfl

/-- A word that only skips on the test its bits select, and then may clear AC, is a case of the group 2 rule (R98). -/
theorem exec_eq_opr2_of_skip {i : Instr} {c cla sma sza snl sense : Bool} {s : State}
    (hi : exec i s = .next ((s.skipIf c).doIf cla State.clearAc)) (hc : s.skipTest sma sza snl sense = c) :
    exec i s = exec (.opr2 cla sma sza snl sense false false) s := by
  subst hc
  exact hi

theorem Bus.finish_doIf_false {α : Type} (b : Bus α) (f : State → State) :
    (b.finish fun _ t => t.doIf false f) = b.state := by
  cases b <;> rfl

/-- OSR, after CLA or not, is a case of the group 2 rule: no test is selected, so nothing is skipped (R98, R102). -/
theorem exec_eq_opr2_of_orSwitch {i : Instr} {cla : Bool} {s : State}
    (hi : exec i s = .next (s.doIf cla State.clearAc).orSwitch.state) :
    exec i s = exec (.opr2 cla false false false false true false) s :=
  hi.trans (congrArg Host.Outcome.next (Bus.finish_doIf_false _ State.requestHalt).symm)

/-- The listed words of group 2: the test each name spells is the one its bits select (R103 to R124). -/
theorem exec_decodeGroup2_of_named (s : State) : ∀ w ∈ namedGroup2, exec (decodeGroup2 w) s =
    exec (.opr2 (bit w 4) (bit w 5) (bit w 6) (bit w 7) (bit w 8) (bit w 9) (bit w 10)) s := by
  simp only [namedGroup2, List.forall_mem_cons, List.not_mem_nil, false_implies, implies_true, and_true]
  refine ⟨rfl, rfl, ?osr, ?skp, ?snl, ?szl, ?sza, ?sna, ?szaSnl, ?snaSzl, ?sma, ?spa, ?smaSnl, ?spaSzl, ?smaSza,
    ?spaSna, ?smaSzaSnl, ?spaSnaSzl, rfl, ?las, ?szaCla, ?snaCla, ?smaCla, ?spaCla⟩
  case osr | las => exact exec_eq_opr2_of_orSwitch rfl
  all_goals exact exec_eq_opr2_of_skip rfl (by simp [State.skipTest, bne, bit])

/-- A word that does no more than the group 3 formula is the case of the rule with no grant delay (R125, R134). -/
theorem exec_eq_opr3_of_group3 {i : Instr} {s : State} {cla mqa mql : Bool}
    (hi : exec i s = .next (s.group3 cla mqa mql)) : exec i s = exec (.opr3 cla mqa false mql 0) s := by
  have h : exec (.opr3 cla mqa false mql 0) s = .next ((s.group3 cla mqa mql).delayGrantIf false) := rfl
  rw [hi, h, State.delayGrantIf, Bool.or_false]

/-- ACL is CLA with MQA: the OR with a cleared AC is MQ (R125, R132). -/
theorem exec_acl_eq_group3 (s : State) : exec .acl s = .next (s.group3 true true false) := by
  have hmq : s.mq = 0 ||| s.mq := BitVec.zero_or.symm
  exact congrArg (fun a => Host.Outcome.next { s with ac := a }) hmq

/-- The listed words of group 3 are rows of the truth table of bits 4, 5 and 7 (R125). -/
theorem exec_decodeGroup3_of_named (s : State) : ∀ w ∈ namedGroup3, exec (decodeGroup3 w) s =
    exec (.opr3 (bit w 4) (bit w 5) (bit w 6) (bit w 7) (bits3 w 8)) s := by
  simp only [namedGroup3, List.forall_mem_cons, List.not_mem_nil, false_implies, implies_true, and_true]
  refine ⟨?nop, ?mql, ?mqa, ?swp, ?cla, ?cam, ?acl, ?claSwp⟩
  case acl => exact exec_eq_opr3_of_group3 (exec_acl_eq_group3 s)
  all_goals exact exec_eq_opr3_of_group3 rfl

/-- Settles O40: a word that the listing does not name is decoded to the generic instruction, and the named ones are
cases of it. -/
theorem operateWordsFollowTheGenericRules : Obligations.OperateWordsFollowTheGenericRules := by
  intro panel w s h0
  refine ⟨fun h3 => ?group1, fun h3 h11 => ?group2, fun h3 h11 => ?group3⟩
  case group1 =>
    rw [decodeWord_group1 panel h0 h3]
    by_cases hn : w ∈ namedGroup1
    · exact exec_decodeGroup1_of_named s w hn
    · rw [decodeGroup1_of_unnamed hn]
  case group2 =>
    rw [decodeWord_group2 panel h0 h3 h11]
    by_cases hn : w ∈ namedGroup2
    · exact exec_decodeGroup2_of_named s w hn
    · rw [decodeGroup2_of_unnamed hn]
  case group3 =>
    rw [decodeWord_group3 panel h0 h3 h11]
    by_cases hn : w ∈ namedGroup3
    · exact exec_decodeGroup3_of_named s w hn
    · rw [decodeGroup3_of_unnamed hn]

end Sys2Proof.Machine
end

section
/-! Group 2 (R98 to R124): the tests as facts about the number in AC and about L, the switch-register read, and from
them the generic word; then HLT (R101) and the panel entry that follows it (R197). -/

namespace Sys2Proof.Machine

/-! ### The tests (R98) -/

/-- Minus: bit 0 is set from 4000 on. -/
theorem bit_zero_iff (w : Word) : bit w 0 = true ↔ 0o4000 ≤ w.toNat := by
  have hmsb : bit w 0 = w.msb := rfl
  rw [hmsb, BitVec.msb_eq_decide, decide_eq_true_iff]

theorem not_bit_zero_iff (w : Word) : (!bit w 0) = true ↔ w.toNat < 0o4000 := by
  rw [Bool.not_eq_true', ← Bool.not_eq_true, bit_zero_iff, Nat.not_le]

theorem beq_zero_iff (w : Word) : (w == 0) = true ↔ w.toNat = 0 := by
  rw [beq_iff_eq, BitVec.toNat_eq]
  rfl

theorem bne_zero_iff (w : Word) : (w != 0) = true ↔ w.toNat ≠ 0 := by
  rw [bne, Bool.not_eq_true', ← Bool.not_eq_true, beq_zero_iff]

/-- The OR of the selected tests decides the skip, or with the sense bit the AND of their opposites. -/
theorem State.skipTest_iff (s : State) (sma sza snl sense : Bool) : s.skipTest sma sza snl sense = true ↔
    if sense then (sma → ¬ 0o4000 ≤ s.ac.toNat) ∧ (sza → s.ac ≠ 0) ∧ (snl → s.l = false)
      else (sma ∧ 0o4000 ≤ s.ac.toNat) ∨ (sza ∧ s.ac = 0) ∨ (snl ∧ s.l = true) := by
  cases sense with
  | false => simp [State.skipTest, bit_zero_iff, or_assoc]
  | true => simp [State.skipTest, ← bit_zero_iff, and_assoc, imp_iff_not_or]

section
variable (s : State) {c : Bool} {p : Prop} [Decidable p]

theorem State.skipIf_of_iff (h : c = true ↔ p) : s.skipIf c = { s with pc := if p then s.pc + 1 else s.pc } := by
  simp only [State.skipIf, h]

theorem State.skipIf_eq_ite (h : c = true ↔ p) : s.skipIf c = if p then { s with pc := s.pc + 1 } else s := by
  rw [s.skipIf_of_iff h]
  split <;> rfl

/-- The test sees AC before it is cleared (R120 to R123). -/
theorem State.skipIf_clearAc_of_iff (h : c = true ↔ p) :
    (s.skipIf c).clearAc = { s with ac := 0, pc := if p then s.pc + 1 else s.pc } := by
  rw [s.skipIf_of_iff h]
  rfl

end

/-! ### The switch-register read (R102) -/

/-- The environment after an acknowledged switch-register read and the gap for DMA before it. -/
def State.switchEnv (s : State) : Env :=
  { s.dmaGap.env with
    acks := s.env.acks.drop 1, waited := s.env.waited + ((s.env.acks.take 1).map Ack.wait).sum,
    switches := s.env.switches.tail, bus := .switchRead s.df :: s.dmaGap.env.bus }

theorem State.orSwitch_done {s : State} (h : s.Acknowledges 1) : s.orSwitch = .done ()
    { s.dmaGap with ac := s.ac ||| s.switchWord, env := s.switchEnv, fresh := s.fresh + 1 } := by
  rw [State.orSwitch, State.switchBus_done h, Bus.andThen_done, State.switchEnv, ← s.takeAck_head, List.drop_one]
  rfl

theorem exec_osr_done {s : State} (h : s.Acknowledges 1) : exec .osr s =
    .next { s.dmaGap with ac := s.ac ||| s.switchWord, env := s.switchEnv, fresh := s.fresh + 1 } := by
  rw [exec_osr, State.orSwitch_done h, Bus.state_done]

/-- LAS is OSR on a cleared AC (R119). -/
theorem exec_las_done {s : State} (h : s.Acknowledges 1) : exec .las s =
    .next { s.dmaGap with ac := s.switchWord, env := s.switchEnv, fresh := s.fresh + 1 } := by
  have hword : s.clearAc.ac ||| s.clearAc.switchWord = s.switchWord := BitVec.zero_or
  rw [exec_las, State.orSwitch_done (s := s.clearAc) h, Bus.state_done, hword]
  rfl

theorem exec_hlt (s : State) : exec .hlt s = .next { s with hltflg := true } := rfl

/-! ### The generic group 2 word, step by step (R98) -/

theorem State.doIf_requestHalt (s : State) (c : Bool) :
    s.doIf c State.requestHalt = { s with hltflg := s.hltflg || c } := by
  cases c <;> simp [State.requestHalt]

theorem State.group2_no_switch_eq (s : State) (cla sma sza snl sense hlt : Bool) :
    s.group2 cla sma sza snl sense false hlt = { s with
      pc := if s.skipTest sma sza snl sense then s.pc + 1 else s.pc
      ac := if cla then 0 else s.ac
      hltflg := s.hltflg || hlt } := by
  rw [State.group2, State.doIf_clearAc, if_neg Bool.false_ne_true, Bus.finish_done, State.doIf_requestHalt]
  rfl

theorem State.group2_switch_eq {s : State} (h : s.Acknowledges 1) (cla sma sza snl sense hlt : Bool) :
    s.group2 cla sma sza snl sense true hlt = { s.dmaGap with
      pc := if s.skipTest sma sza snl sense then s.pc + 1 else s.pc
      ac := (if cla then 0 else s.ac) ||| s.switchWord
      hltflg := s.hltflg || hlt
      env := s.switchEnv
      fresh := s.fresh + 1 } := by
  have hack : ((s.skipIf (s.skipTest sma sza snl sense)).doIf cla State.clearAc).Acknowledges 1 :=
    h.of_acks (by rw [State.doIf_clearAc, State.skipIf_env])
  rw [State.group2, if_pos rfl, State.orSwitch_done hack, Bus.finish_done, State.doIf_requestHalt,
    State.doIf_clearAc]
  rfl

/-! ### Settled: the group 2 words -/

/-- Settles O36: the skip is `State.skipTest_iff`, the rest the two forms of the word, without OSR and with it. -/
theorem group2Sequence : Obligations.Group2Sequence := by
  intro s cla sma sza snl sense osr hlt hack minus taken b
  have htaken : s.skipTest sma sza snl sense = true ↔ taken := s.skipTest_iff sma sza snl sense
  refine ⟨_, exec_opr2 .., ?_⟩
  cases osr with
  | false =>
    rw [State.group2_no_switch_eq]
    exact ⟨fun h => if_pos (htaken.2 h), fun h => if_neg (mt htaken.1 h), BitVec.or_zero.symm, rfl, rfl, rfl, rfl⟩
  | true =>
    rw [State.group2_switch_eq (hack rfl)]
    exact ⟨fun h => if_pos (htaken.2 h), fun h => if_neg (mt htaken.1 h), rfl, rfl, rfl, rfl, rfl⟩

/-- Settles O34: each word skips on the one fact its test states. -/
theorem group2SingleTests : Obligations.Group2SingleTests := by
  intro s
  refine ⟨rfl, rfl, ?snl, ?szl, ?sza, ?sna, ?sma, ?spa, rfl⟩ <;> apply congrArg Host.Outcome.next
  case snl => exact s.skipIf_eq_ite Iff.rfl
  case szl => exact s.skipIf_eq_ite (Bool.not_eq_true' s.l).to_iff
  case sza => exact s.skipIf_eq_ite beq_iff_eq
  case sna => exact s.skipIf_eq_ite bne_iff_ne
  case sma => exact s.skipIf_eq_ite (bit_zero_iff s.ac)
  case spa => exact s.skipIf_eq_ite ((not_bit_zero_iff s.ac).trans Nat.lt_succ_iff)

/-- Settles O35: each condition is the OR or the AND of single tests, seen before AC is cleared. -/
theorem group2CombinedTests : Obligations.Group2CombinedTests := by
  intro s n
  refine ⟨?szaSnl, ?snaSzl, ?smaSnl, ?spaSzl, ?smaSza, ?spaSna, ?smaSzaSnl, ?spaSnaSzl, ?szaCla, ?snaCla, ?smaCla,
    ?spaCla⟩ <;> apply congrArg Host.Outcome.next
  case szaSnl => exact s.skipIf_of_iff (by rw [Bool.or_eq_true, beq_zero_iff])
  case snaSzl => exact s.skipIf_of_iff (by rw [Bool.and_eq_true, bne_zero_iff, Bool.not_eq_true'])
  case smaSnl => exact s.skipIf_of_iff (by rw [Bool.or_eq_true, bit_zero_iff])
  case spaSzl => exact s.skipIf_of_iff (by rw [Bool.and_eq_true, not_bit_zero_iff, Bool.not_eq_true'])
  case smaSza => exact s.skipIf_of_iff (by rw [Bool.or_eq_true, bit_zero_iff, beq_zero_iff])
  case spaSna =>
    exact s.skipIf_of_iff (by rw [Bool.and_eq_true, not_bit_zero_iff, bne_zero_iff, and_comm, Nat.pos_iff_ne_zero])
  case smaSzaSnl =>
    exact s.skipIf_of_iff (by rw [Bool.or_eq_true, Bool.or_eq_true, bit_zero_iff, beq_zero_iff, or_assoc])
  case spaSnaSzl =>
    exact s.skipIf_of_iff (by
      rw [Bool.and_eq_true, Bool.and_eq_true, not_bit_zero_iff, bne_zero_iff, Bool.not_eq_true',
        and_comm (a := s.ac.toNat < 0o4000), and_assoc, Nat.pos_iff_ne_zero])
  case szaCla => exact s.skipIf_clearAc_of_iff (beq_zero_iff s.ac)
  case snaCla => exact s.skipIf_clearAc_of_iff (bne_zero_iff s.ac)
  case smaCla => exact s.skipIf_clearAc_of_iff (bit_zero_iff s.ac)
  case spaCla => exact s.skipIf_clearAc_of_iff (not_bit_zero_iff s.ac)

/-- Settles O37: the two reads are the acknowledged switch-register read, into AC as it is and into a cleared AC. -/
theorem switchRegisterReadsAndHalt : Obligations.SwitchRegisterReadsAndHalt :=
  fun s => ⟨fun h => ⟨exec_osr_done h, exec_las_done h⟩, exec_hlt s⟩

/-! ### A boundary at which nothing acts from outside -/

theorem State.Quiet.boundary_eq {s : State} (h : s.Quiet) : s.boundary = s := by
  obtain ⟨hmoves, hdma⟩ := h
  exact State.boundary_idle hmoves hdma

/-- An acknowledged fetch, then the execution of what was fetched (R188). -/
theorem State.runInstruction_done {s f u : State} (hf : s.fetch = .done () f) (he : exec f.current f = .next u) :
    s.runInstruction = .next (u.latchTemp.spendIfDone (minorCycles f.current f u)) := by
  rw [State.runInstruction, hf]
  simp only [he]

/-- A step with nothing acting from outside that fetches an instruction and has its fetch acknowledged. -/
theorem step_of_quiet_fetch {s f u : State} (hq : s.Quiet) (hd : s.decision = .fetch) (hf : s.fetch = .done () f)
    (he : exec f.current f = .next u) :
    step s = .next (u.latchTemp.spendIfDone (minorCycles f.current f u)) := by
  have hb := hq.boundary_eq
  rw [step_of_fetch (by rw [hb, hd]), hb, State.runInstruction_done hf he]

/-- A panel request that nothing delays is taken (R191, R197). -/
theorem step_of_quiet_panelRequest {s : State} (hq : s.Quiet) (hs : s.Serving) (hn : s.nogrant = false)
    (hg : s.panelGrantable = true) (ha : s.Acknowledges 1) :
    step s = .next { s.takeAck.write ⟨.panel, 0, 0⟩ s.pc with
      ctrlff := true, fz := true, pdf := false, pc := 0o7777, untimed := s.untimed + 1 } := by
  have hb := hq.boundary_eq
  have hd : s.decision = .panelEntry := by simp [State.decision_of_serving hs, hn, hg]
  rw [step_of_panelEntry (by rw [hb, hd]), hb, State.panelEntry_done ha]
  rfl

/-! ### HLT, then the panel entry (R101, R188, R197) -/

theorem decodeWord_hlt (panel : Bool) : decodeWord panel 0o7402 = .hlt :=
  decodeWord_group2 panel rfl rfl rfl

/-- The state after a step that runs HLT. -/
def State.halted (s : State) : State :=
  { s.takeAck.latchTemp with
    ol := s.pc, ir := 0o7402, pc := s.pc + 1, nogrant := false, hltflg := true, clocks := s.clocks + 2 * 7 }

theorem step_hlt {s : State} (hq : s.Quiet) (hd : s.decision = .fetch) (ha : s.Acknowledges 1)
    (hw : s.read (s.instrAddr s.pc) = 0o7402) : step s = .next s.halted := by
  obtain ⟨_, hwaiting, _, _⟩ := State.decision_serving (s := s) (by simp [hd])
  have hf := State.fetch_done ha
  rw [hw] at hf
  rw [step_of_quiet_fetch hq hd hf (by rw [State.current, decodeWord_hlt, exec_hlt]), State.current, decodeWord_hlt]
  simp [State.spendIfDone, hwaiting, minorCycles, State.halted, State.latchTemp]

/-- Settles O55: HLT leaves HLTFLG as a request that the next boundary takes, and the entry stores the advanced PC. -/
theorem haltIsFollowedByPanelEntry : Obligations.HaltIsFollowedByPanelEntry := by
  intro s hq hs ha hd hctrl hiiff hwf hw hram
  have hgrantable : s.halted.panelGrantable = true := by simp [State.panelGrantable, State.halted, hctrl, hiiff]
  have hack : s.halted.Acknowledges 1 := ha.drop (m := 1) List.drop_one.symm
  have hstored : (s.halted.takeAck.write ⟨.panel, 0, 0⟩ s.halted.pc).read ⟨.panel, 0, 0⟩ = s.halted.pc :=
    State.read_write_same hwf hram
  exact ⟨s.halted, _, step_hlt hq hd (ha.mono (by decide)) hw, step_of_quiet_panelRequest hq hs rfl hgrantable hack,
    rfl, rfl, hctrl, rfl, rfl, rfl, rfl, rfl, hstored⟩

end Sys2Proof.Machine
end

section
/-! Group 3 (R125 to R134): bits 4, 5 and 7 select a row of the truth table; the other template bits only delay the
next grant. -/

namespace Sys2Proof.Machine

/-! ### The rows of the truth table that OR into AC (R125) -/

/-- MQA alone ORs MQ into AC; the table writes MQ first, R128 writes AC first. -/
theorem State.group3_of_mqa (s : State) : s.group3 false true false = { s with ac := s.mq ||| s.ac } := by
  have hor : s.ac ||| s.mq = s.mq ||| s.ac := BitVec.or_comm ..
  rw [← hor]
  rfl

/-- After CLA there is nothing to OR with: MQA loads MQ (R132). -/
theorem State.group3_of_cla_mqa (s : State) : s.group3 true true false = { s with ac := s.mq } :=
  (Host.Outcome.next.inj (exec_acl_eq_group3 s)).symm

/-! ### The grant delay (R134) -/

theorem field_bne_zero_eq_bits (u : Field) : (u != 0) = (u.getLsbD 0 || u.getLsbD 1 || u.getLsbD 2) := by
  revert u
  decide

/-- Bits 6, 8, 9 and 10 never choose the row; any of them delays the next grant. -/
theorem exec_opr3 (cla mqa u6 mql : Bool) (u : Field) (s : State) : exec (.opr3 cla mqa u6 mql u) s =
    .next { s.group3 cla mqa mql with
      nogrant := s.nogrant || u6 || u.getLsbD 0 || u.getLsbD 1 || u.getLsbD 2 } := by
  have hdelay : (s.nogrant || (u6 || u != 0)) =
      (s.nogrant || u6 || u.getLsbD 0 || u.getLsbD 1 || u.getLsbD 2) := by
    simp only [field_bne_zero_eq_bits, Bool.or_assoc]
  rw [← hdelay]
  rfl

/-! ### Settled: the group 3 words -/

/-- Settles O39: each row is the group 3 formula at its three bits, under the grant delay that all rows share. -/
theorem group3TruthTable : Obligations.Group3TruthTable := by
  intro s u6 u d
  simp only [exec_opr3]
  refine ⟨rfl, rfl, ?mqa, rfl, rfl, rfl, ?claMqa, rfl⟩
  case mqa => rw [State.group3_of_mqa]
  case claMqa => rw [State.group3_of_cla_mqa]

/-- Settles O38: the model spells seven of the words as their rules do, and MQA is the row of the table. -/
theorem group3Listing : Obligations.Group3Listing := by
  intro s
  refine ⟨rfl, rfl, ?mqa, rfl, rfl, rfl, rfl, rfl⟩
  case mqa => exact congrArg Host.Outcome.next s.group3_of_mqa

end Sys2Proof.Machine
end

section
/-! The stacks (R135 to R147) where the stack word's operation is acknowledged: a push stores and lowers its pointer, a
pop or a return raises the pointer and reads. -/

namespace Sys2Proof.Machine

/-! ### Pushes (R136 to R139) -/

section
variable {s : State} {v : Word} {i : Instr}

theorem State.push1_done (h : s.Acknowledges 1) :
    s.push1 v = { s.dmaGap.takeAck.write (s.stackAddr s.sp1) v with sp1 := s.sp1 - 1 } := by
  rw [State.push1, State.busWrite_done _ _ h]
  rfl

theorem State.push2_done (h : s.Acknowledges 1) :
    s.push2 v = { s.dmaGap.takeAck.write (s.stackAddr s.sp2) v with sp2 := s.sp2 - 1 } := by
  rw [State.push2, State.busWrite_done _ _ h]
  rfl

/-- What PPC1 and PAC1 share, whichever word they push. -/
theorem exec_push1_done (hi : exec i s = .next (s.push1 v)) (h : s.Acknowledges 1) :
    ∃ t, exec i s = .next t ∧ t = { s with sp1 := s.sp1 - 1, mem := t.mem, env := t.env } ∧ EnvAfter 1 1 s t ∧
      (s.mem.wf = true → s.platform.kindOf (s.stackAddr s.sp1) = .ram → t.read (s.stackAddr s.sp1) = v) ∧
      MemoryKeptExcept [s.stackAddr s.sp1] s t := by
  obtain ⟨hframe, hafter, hstored⟩ := s.busWrite_storedAfter (s.stackAddr s.sp1) v
  rw [hi, State.push1_done h]
  generalize s.dmaGap.takeAck.write (s.stackAddr s.sp1) v = w at *
  obtain ⟨henv, -, hkept⟩ := hafter.of_eq (u := { w with sp1 := s.sp1 - 1 }) rfl rfl rfl
  refine ⟨_, rfl, ?frame, henv, hstored, hkept⟩
  case frame => rw [hframe]

/-- What PPC2 and PAC2 share, whichever word they push. -/
theorem exec_push2_done (hi : exec i s = .next (s.push2 v)) (h : s.Acknowledges 1) :
    ∃ t, exec i s = .next t ∧ t = { s with sp2 := s.sp2 - 1, mem := t.mem, env := t.env } ∧ EnvAfter 1 1 s t ∧
      (s.mem.wf = true → s.platform.kindOf (s.stackAddr s.sp2) = .ram → t.read (s.stackAddr s.sp2) = v) ∧
      MemoryKeptExcept [s.stackAddr s.sp2] s t := by
  obtain ⟨hframe, hafter, hstored⟩ := s.busWrite_storedAfter (s.stackAddr s.sp2) v
  rw [hi, State.push2_done h]
  generalize s.dmaGap.takeAck.write (s.stackAddr s.sp2) v = w at *
  obtain ⟨henv, -, hkept⟩ := hafter.of_eq (u := { w with sp2 := s.sp2 - 1 }) rfl rfl rfl
  refine ⟨_, rfl, ?frame, henv, hstored, hkept⟩
  case frame => rw [hframe]

end

/-! ### Pops and returns (R140 to R143) -/

/-- The stack word of a return, by the mode, the pending exit and the platform before it (R140, D6). -/
def State.returnWord (s : State) (sp : Word) : Addr :=
  ⟨if !s.ctrlff || s.pexff || !s.platform.rtnMainStackOnlyAfterPex then .main else .panel, 0, sp⟩

theorem State.returnAddr_eq_returnWord (s t : State) (hp : t.platform = s.platform)
    (hc : t.ctrlff = (s.ctrlff && !s.pexff)) (sp : Word) : t.returnAddr s sp = s.returnWord sp :=
  State.returnAddr_of_transferred hp hc sp

/-- Where a return stays in its mode and the platform reads that mode's stack, it pops what a push stored (R135). -/
theorem State.returnWord_eq_stackAddr {s : State} (hpex : s.pexff = false)
    (hp : s.platform.rtnMainStackOnlyAfterPex = true) (sp : Word) : s.returnWord sp = s.stackAddr sp := by
  rw [State.returnWord, State.stackAddr, State.ownSpace, hpex, hp]
  cases s.ctrlff <;> rfl

section
variable {s : State}

theorem exec_pop1_done (h : s.Acknowledges 1) : exec .pop1 s = .next { s.dmaGap.takeAck with
    sp1 := s.sp1 + 1, ac := s.dmaGap.read (s.stackAddr (s.sp1 + 1)) } := by
  have h' : s.raiseSp1.Acknowledges 1 := h.of_acks rfl
  rw [exec_pop1, State.busRead_done _ h']
  rfl

theorem exec_pop2_done (h : s.Acknowledges 1) : exec .pop2 s = .next { s.dmaGap.takeAck with
    sp2 := s.sp2 + 1, ac := s.dmaGap.read (s.stackAddr (s.sp2 + 1)) } := by
  have h' : s.raiseSp2.Acknowledges 1 := h.of_acks rfl
  rw [exec_pop2, State.busRead_done _ h']
  rfl

theorem exec_rtn1_done (h : s.Acknowledges 1) : exec .rtn1 s = .next { s.fieldTransfer with
    sp1 := s.sp1 + 1, pc := s.dmaGap.read (s.returnWord (s.sp1 + 1)), mem := s.dmaGap.mem
    env := s.dmaGap.takeAck.env } := by
  have h' : s.raiseSp1.fieldTransfer.Acknowledges 1 := h.of_acks rfl
  rw [exec_rtn1, s.returnAddr_eq_returnWord s.raiseSp1.fieldTransfer rfl rfl, State.busRead_done _ h']
  rfl

theorem exec_rtn2_done (h : s.Acknowledges 1) : exec .rtn2 s = .next { s.fieldTransfer with
    sp2 := s.sp2 + 1, pc := s.dmaGap.read (s.returnWord (s.sp2 + 1)), mem := s.dmaGap.mem
    env := s.dmaGap.takeAck.env } := by
  have h' : s.raiseSp2.fieldTransfer.Acknowledges 1 := h.of_acks rfl
  rw [exec_rtn2, s.returnAddr_eq_returnWord s.raiseSp2.fieldTransfer rfl rfl, State.busRead_done _ h']
  rfl

/-- One acknowledged read of the stack, whatever registers change with it. -/
theorem State.stackRead_kept {u : State} (he : u.env = s.dmaGap.takeAck.env) (hm : u.mem = s.dmaGap.takeAck.mem)
    (hp : u.platform = s.platform) : EnvAfter 1 1 s u ∧ MemoryKeptExcept [] s u := by
  obtain ⟨henv, -, hkept⟩ := s.busRead_afterBus.of_eq he hm hp
  exact ⟨henv, hkept⟩

end

/-! ### Settled: each stack instruction by itself -/

/-- Settles O41: the two words of each stack are the same push of different words. -/
theorem pushesStoreAndDecrement : Obligations.PushesStoreAndDecrement := by
  intro s h
  simp only [List.forall_mem_cons, List.not_mem_nil, false_implies, implies_true, and_true]
  exact ⟨⟨exec_push1_done (exec_ppc1 s) h, exec_push1_done (exec_pac1 s) h⟩,
    exec_push2_done (exec_ppc2 s) h, exec_push2_done (exec_pac2 s) h⟩

/-- Settles O42: a pop is one acknowledged read above the pointer; the pointer moves are register moves. -/
theorem popsAndPointerMoves : Obligations.PopsAndPointerMoves := by
  intro s
  refine ⟨fun h => ?pop1, fun h => ?pop2, rfl, rfl, rfl, rfl⟩
  case pop1 => exact ⟨_, exec_pop1_done h, rfl, rfl, State.stackRead_kept rfl rfl rfl⟩
  case pop2 => exact ⟨_, exec_pop2_done h, rfl, rfl, State.stackRead_kept rfl rfl rfl⟩

/-- Settles O43: a return is one acknowledged read of the stack its field transfer and the platform choose. -/
theorem returnsLoadPcFromTheStack : Obligations.ReturnsLoadPcFromTheStack := by
  intro s h main space
  refine ⟨?rtn1, ?rtn2⟩
  case rtn1 => exact ⟨_, exec_rtn1_done h, rfl, rfl, State.stackRead_kept rfl rfl rfl⟩
  case rtn2 => exact ⟨_, exec_rtn2_done h, rfl, rfl, State.stackRead_kept rfl rfl rfl⟩

/-! ### Settled: a push and the pop that undoes it -/

section
variable {s t : State} {v : Word}

/-- A word pushed with no DMA is what the next pop finds: the raised pointer is the old one. -/
theorem State.push1_then_read (hwf : s.mem.wf = true) (hdma : s.env.dma = []) (hack : s.Acknowledges 2)
    (hram : s.platform.kindOf (s.stackAddr s.sp1) = .ram) (hpush : s.push1 v = t) :
    t.Acknowledges 1 ∧ t.sp1 + 1 = s.sp1 ∧ t.dmaGap.read (s.stackAddr s.sp1) = v ∧
      t = { s with sp1 := t.sp1, mem := t.mem, env := t.env } := by
  rw [State.push1_done (hack.mono (by decide)), State.dmaGap_idle hdma] at hpush
  obtain rfl := hpush
  refine ⟨hack.drop (m := 1) (by simp), BitVec.sub_add_cancel _ _, ?read, rfl⟩
  case read =>
    rw [State.dmaGap_idle (by simpa using hdma)]
    exact State.read_write_same hwf hram

end

/-- Settles O44: POP1 and, with no panel exit pending, RTN1 read the word where the push has left it. -/
theorem pushThenPopRestores : Obligations.PushThenPopRestores := by
  intro s t x hwf hdma hack hram
  refine ⟨fun hpush => ?pop, fun hpush hpex hplatform => ?rtn⟩
  case pop =>
    rw [exec_pac1] at hpush
    obtain ⟨hack', hsp, hread, hframe⟩ := State.push1_then_read hwf hdma hack hram (Host.Outcome.next.inj hpush)
    have haddr : t.stackAddr (t.sp1 + 1) = s.stackAddr s.sp1 := by
      rw [hsp, hframe]
      rfl
    exact ⟨_, exec_pop1_done (hack'.of_acks rfl), (congrArg t.dmaGap.read haddr).trans hread, hsp⟩
  case rtn =>
    rw [exec_ppc1] at hpush
    obtain ⟨hack', hsp, hread, hframe⟩ := State.push1_then_read hwf hdma hack hram (Host.Outcome.next.inj hpush)
    have haddr : t.returnWord (t.sp1 + 1) = s.stackAddr s.sp1 := by
      rw [hsp, hframe]
      exact State.returnWord_eq_stackAddr (s := s) hpex hplatform s.sp1
    exact ⟨_, exec_rtn1_done (hack'.of_acks rfl), (congrArg t.dmaGap.read haddr).trans hread, hsp⟩

end Sys2Proof.Machine
end

section
/-! The internal control instructions (R149 to R156) and GTF (R160): what each leaves, the bits of the status word that
GCF and GTF read and RTF loads, and the grant delay of ION over one NOP. -/

namespace Sys2Proof.Machine

/-! ### The status word (R156, R160) and the fields RTF takes from AC (R152) -/

/-- Each bit and field of the status word at its place. -/
theorem State.statusWord_bits (s : State) (b : Bool) (f g : Field) :
    bit (s.statusWord b f g) 0 = s.l ∧ bit (s.statusWord b f g) 1 = s.gt ∧
      bit (s.statusWord b f g) 2 = s.pins.intreqLow ∧ bit (s.statusWord b f g) 3 = s.pwron ∧
      bit (s.statusWord b f g) 4 = b ∧ bit (s.statusWord b f g) 5 = false ∧
      bits3 (s.statusWord b f g) 6 = f ∧ bits3 (s.statusWord b f g) 9 = g := by
  simp [State.statusWord, bit, bits3, BitVec.getLsbD_append, BitVec.extractLsb'_append_eq_ite, -Nat.reduceAdd,
    -BitVec.getLsbD_eq_getElem]

/-- A field of a word as an octal digit of the word's number (R7). -/
theorem bits3_toNat (w : Word) (a : Nat) : (bits3 w a).toNat = w.toNat / 2 ^ (9 - a) % 8 := by
  rw [bits3, BitVec.extractLsb'_toNat, Nat.shiftRight_eq_div_pow]

/-! ### What each instruction leaves -/

theorem exec_rtf (s : State) : exec .rtf s = .next { s with
    ac := 0, l := bit s.ac 0, gt := bit s.ac 1, ieff := bit s.ac 4, ib := bits3 s.ac 6, df := bits3 s.ac 9,
    iiff := true } := rfl

theorem exec_gcf (s : State) : exec .gcf s = .next { s with ac := s.statusWord s.ieff s.ifr s.df } := rfl
theorem exec_gtf (s : State) : exec .gtf s = .next { s with ac := s.statusWord true s.isf s.dsf } := rfl
theorem exec_iof (s : State) : exec .iof s = .next { s with ieff := false } := rfl
theorem exec_sgt (s : State) : exec .sgt s = .next (s.skipIf s.gt) := rfl
theorem exec_nop1 (s : State) : exec .nop1 s = .next s := rfl

theorem exec_caf (s : State) : exec .caf s = .next { s with
    ac := 0, l := false, gt := false, ieff := false, env := { s.env with bus := .ioClear false :: s.env.bus } } := rfl

theorem exec_wsr_done {s : State} (h : s.Acknowledges 1) : exec .wsr s = .next { s.dmaGap with
    ac := 0
    env := { s.dmaGap.env with
      acks := s.env.acks.drop 1, waited := s.env.waited + ((s.env.acks.take 1).map Ack.wait).sum,
      bus := .switchWrite s.df s.ac :: s.dmaGap.env.bus } } := by
  rw [exec_wsr, State.switchWrite_done h, Bus.finish_done, ← s.takeAck_head, List.drop_one]
  rfl

/-- RTF undoes the status word of any state, whatever else has changed since it was read. -/
theorem exec_rtf_statusWord (s u : State) (b : Bool) (f g : Field) :
    exec .rtf { u with ac := s.statusWord b f g } = .next { u with
      ac := 0, l := s.l, gt := s.gt, ieff := b, ib := f, df := g, iiff := true } := by
  obtain ⟨hl, hgt, -, -, hb, -, hf, hg⟩ := s.statusWord_bits b f g
  rw [exec_rtf]
  simp only [hl, hgt, hb, hf, hg]

/-! ### Settled: the internal control instructions, RTF, GCF and GTF -/

/-- Settles O45: register moves but for WSR, which is one acknowledged bus write after its gap. -/
theorem internalControlResults : Obligations.InternalControlResults :=
  fun s => ⟨exec_ion s, exec_iof s, (exec_sgt s).trans (congrArg _ (s.skipIf_eq_ite Iff.rfl)), exec_caf s, exec_wsr_done⟩

/-- Settles O46: the two field digits of AC are its number divided by 8 and its remainder. -/
theorem rtfLoadsFlagsFromAc : Obligations.RtfLoadsFlagsFromAc := by
  intro s
  have hib : (bits3 s.ac 6).toNat = s.ac.toNat / 8 % 8 := bits3_toNat s.ac 6
  have hdf : (bits3 s.ac 9).toNat = s.ac.toNat % 8 := by simpa using bits3_toNat s.ac 9
  exact ⟨_, exec_rtf s, rfl, rfl, rfl, hib, hdf, rfl⟩

/-- Settles O47: both words are status words, of the current and of the saved fields. -/
theorem flagWordsOfGcfAndGtf : Obligations.FlagWordsOfGcfAndGtf :=
  fun s => ⟨⟨_, exec_gcf s, rfl, s.statusWord_bits s.ieff s.ifr s.df⟩,
    ⟨_, exec_gtf s, rfl, s.statusWord_bits true s.isf s.dsf⟩⟩

/-- Settles O48: RTF finds each flag and field of a status word where GCF or GTF has put it. -/
theorem rtfUndoesGcfAndGtf : Obligations.RtfUndoesGcfAndGtf := by
  intro s t u
  refine ⟨fun hgcf => ?gcf, fun hgtf => ?gtf⟩
  case gcf =>
    obtain rfl := Host.Outcome.next.inj ((exec_gcf s).symm.trans hgcf)
    exact exec_rtf_statusWord s u s.ieff s.ifr s.df
  case gtf =>
    obtain rfl := Host.Outcome.next.inj ((exec_gtf s).symm.trans hgtf)
    exact exec_rtf_statusWord s u true s.isf s.dsf

/-! ### ION, then a NOP, then the grant (R150, R190, R218) -/

/-- The grant delay comes before every request (R190). -/
theorem State.decision_of_nogrant {s : State} (hs : s.Serving) (hn : s.nogrant = true) : s.decision = .fetch := by
  rw [State.decision_of_serving hs, if_pos hn]

/-- With no delay and no panel request, the device interrupt is granted (R193). -/
theorem State.decision_of_interruptGrantable {s : State} (hs : s.Serving) (hn : s.nogrant = false)
    (hp : s.panelGrantable = false) (hi : s.interruptGrantable = true) : s.decision = .interruptGrant := by
  simp [State.decision_of_serving hs, hn, hp, hi]

theorem decodeWord_nop1 (panel : Bool) : decodeWord panel 0o7000 = .nop1 :=
  decodeWord_group1 panel rfl rfl

/-- The state after an acknowledged fetch (R188 step 7). -/
def State.fetched (s : State) : State :=
  { s.takeAck with ol := s.pc, ir := s.read (s.instrAddr s.pc), pc := s.pc + 1, nogrant := false }

/-- A step with nothing acting from outside that fetches and executes the instruction `i`. -/
theorem step_of_quiet_instruction {s u : State} {i : Instr} (hq : s.Quiet) (hd : s.decision = .fetch)
    (ha : s.Acknowledges 1) (hi : decodeWord s.ctrlff (s.read (s.instrAddr s.pc)) = i) (he : exec i s.fetched = .next u) :
    step s = .next (u.latchTemp.spendIfDone (minorCycles i s.fetched u)) := by
  have hcurrent : s.fetched.current = i := hi
  rw [← hcurrent] at he ⊢
  exact step_of_quiet_fetch hq hd (State.fetch_done ha) he

/-- The time of a sequence with no bus operation left waiting (R231). -/
theorem State.spendIfDone_of_done {s : State} (h : s.waiting = none) (n : Option Nat) : s.spendIfDone n = s.spend n := by
  simp [State.spendIfDone, h]

/-- The state after a step that runs NOP: only the fetch, TEMP and the time. -/
def State.idled (s : State) : State :=
  { s.fetched.latchTemp with clocks := s.clocks + 2 * 6 }

theorem step_nop1 {s : State} (hq : s.Quiet) (hd : s.decision = .fetch) (ha : s.Acknowledges 1)
    (hw : s.read (s.instrAddr s.pc) = 0o7000) : step s = .next s.idled := by
  obtain ⟨_, hwaiting, _, _⟩ := State.decision_serving (s := s) (by simp [hd])
  have hdone : s.fetched.latchTemp.waiting = none := hwaiting
  rw [step_of_quiet_instruction hq hd ha (by rw [hw, decodeWord_nop1]) (exec_nop1 s.fetched),
    State.spendIfDone_of_done hdone]
  rfl

section
variable {s : State} (hq : s.Quiet) (hs : s.Serving) (hn : s.nogrant = true)
include hq hs hn

/-- The grant delay forces the fetch at the next boundary, whatever is requested (R190). -/
theorem boundary_fetches_of_nogrant : s.boundary.decision = .fetch := by
  rw [hq.boundary_eq, State.decision_of_nogrant hs hn]

/-- A NOP fetched under the grant delay uses the delay up and leaves the requests as they are (R190). -/
theorem nop1_ends_grant_delay (ha : s.Acknowledges 1) (hw : s.read (s.instrAddr s.pc) = 0o7000) :
    ∃ u, step s = .next u ∧ u.pc = s.pc + 1 ∧ u.nogrant = false ∧
      (s.panelGrantable = false → s.interruptGrantable = true → u.boundary.decision = .interruptGrant) := by
  have hstep : step s = .next s.idled := step_nop1 hq (State.decision_of_nogrant hs hn) ha hw
  refine ⟨s.idled, hstep, rfl, rfl, fun hp hi => ?grant⟩
  case grant =>
    have hidle : s.idled.Quiet := hq
    rw [hidle.boundary_eq]
    exact State.decision_of_interruptGrantable hs rfl hp hi

end

/-- Settles O56: ION sets the grant delay, and a NOP fetched under it is what ends it. -/
theorem ionDelaysTheGrantByOneInstruction : Obligations.IonDelaysTheGrantByOneInstruction := by
  intro s t hq hs ha hion
  obtain rfl := Host.Outcome.next.inj ((exec_ion s).symm.trans hion)
  exact ⟨boundary_fetches_of_nogrant hq hs rfl, rfl, nop1_ends_grant_delay hq hs rfl (ha.of_acks rfl)⟩

end Sys2Proof.Machine
end

section
/-! The main memory control instructions (R158, R159, R161 to R164): the skips of SKON and SRQ, and the panel traps PR0
to PR3, which are one trap whichever of the four is executed. -/

namespace Sys2Proof.Machine

theorem exec_skon (s : State) : exec .skon s = .next { s.skipIf s.ieff with ieff := false } := rfl

theorem exec_srq (s : State) : exec .srq s = .next (s.skipIf s.pins.intreqLow) := rfl

theorem exec_panelTrap (s : State) : ∀ i ∈ [Instr.pr0, .pr1, .pr2, .pr3], exec i s = .next s.panelTrap := by
  simp only [List.forall_mem_cons, List.not_mem_nil, false_implies, implies_true, and_true]
  exact ⟨rfl, rfl, rfl, rfl⟩

/-- The trap requests panel mode from main mode only (R161). -/
theorem State.panelTrap_eq_ite (s : State) :
    s.panelTrap = if s.ctrlff = true then s else { s with pnltrp := true } := by
  rw [State.panelTrap]
  split
  case isTrue hpanel =>
    have hkept : (s.pnltrp || !s.ctrlff) = s.pnltrp := by simp [hpanel]
    rw [hkept]
  case isFalse hmain =>
    have hset : (s.pnltrp || !s.ctrlff) = true := by simp [hmain]
    rw [hset]

/-- Settles O49: SKON and SRQ are skips on one flag or pin, and the four traps are one. -/
theorem mainControlResults : Obligations.MainControlResults := by
  intro s
  refine ⟨?skon, ?srq, ?traps⟩
  case skon => rw [exec_skon, s.skipIf_of_iff Iff.rfl]
  case srq => rw [exec_srq, s.skipIf_eq_ite Iff.rfl]
  case traps =>
    intro i hi
    rw [exec_panelTrap s i hi, s.panelTrap_eq_ite]

end Sys2Proof.Machine
end

section
/-! The panel mode control instructions (R165 to R170): the status word PRS reads, and the flags each of them
leaves. -/

namespace Sys2Proof.Machine

/-- Each bit of the panel status word at its place (R166). -/
theorem State.panelStatus_bits (s : State) :
    bit s.panelStatus 0 = s.btstrp ∧ bit s.panelStatus 1 = s.pnltrp ∧ bit s.panelStatus 2 = s.pins.intreqLow ∧
      bit s.panelStatus 3 = s.pwron ∧ bit s.panelStatus 4 = s.hltflg := by
  simp [State.panelStatus, bit, BitVec.getLsbD_append, -Nat.reduceAdd, -BitVec.getLsbD_eq_getElem]

/-- The seven bits below the flags are 0 (R166): the word is the five flags, shifted seven places. -/
theorem State.panelStatus_low (s : State) : s.panelStatus.toNat % 128 = 0 := by
  rw [State.panelStatus, BitVec.toNat_append, BitVec.toNat_ofNat, Nat.zero_mod, Nat.or_zero, Nat.shiftLeft_eq]
  exact Nat.mul_mod_left _ _

/-- A BTSTRP cleared only when AC0 has read it as 1 (R166) is 0 afterwards: read as 0, it was 0 already. -/
theorem State.btstrp_cleared (s : State) : (if bit s.panelStatus 0 = true then false else s.btstrp) = false := by
  rw [s.panelStatus_bits.1]
  split
  case isTrue => rfl
  case isFalse hunread => exact Bool.eq_false_of_not_eq_true hunread

theorem exec_prs (s : State) : exec .prs s = .next { s with
    ac := s.panelStatus, pnltrp := false, pwron := false, btstrp := false } := rfl

theorem exec_pgo (s : State) : exec .pgo s = .next { s with hltflg := false } := rfl
theorem exec_cpd (s : State) : exec .cpd s = .next { s with pdf := false } := rfl
theorem exec_spd (s : State) : exec .spd s = .next { s with pdf := true } := rfl

/-- Settles O50: PRS reads the panel status word and clears what it has read but HLTFLG; the others are flag moves. -/
theorem panelControlResults : Obligations.PanelControlResults := by
  intro s
  refine ⟨⟨_, exec_prs s, ?status⟩, exec_pgo s, exec_pex s, exec_cpd s, exec_spd s⟩
  case status =>
    obtain ⟨hbtstrp, hpnltrp, hintreq, hpwron, hhltflg⟩ := s.panelStatus_bits
    refine ⟨hbtstrp, hpnltrp, hintreq, hpwron, hhltflg, s.panelStatus_low, ?frame⟩
    rw [s.btstrp_cleared]

end Sys2Proof.Machine
end

section
/-! Main mode and panel memory (R206): a relation between two runs that each thing an instruction does in main mode keeps
is kept by every instruction (`MainModeRelation.exec_next`). One such relation says that a run stores nothing in panel
memory, another that two runs differ in panel memory only. -/

namespace Sys2Proof.Machine

/-! ### Updates that neither use nor change memory -/

/-- An update that neither looks at memory nor changes it, and keeps the platform, the coming DMA transfers and main
mode. -/
structure MemoryFree (f : State → State) : Prop where
  mem : ∀ s m, f { s with mem := m } = { f s with mem := m }
  platform : ∀ s, (f s).platform = s.platform
  dma : ∀ s, (f s).env.dma = s.env.dma
  main : ∀ s, s.ctrlff = false → (f s).ctrlff = false

section
variable {f g : State → State}

theorem MemoryFree.mem_eq (hf : MemoryFree f) (s : State) : (f s).mem = s.mem := by
  rw [hf.mem s s.mem]

theorem MemoryFree.read_eq (hf : MemoryFree f) (s : State) (a : Addr) : (f s).read a = s.read a := by
  rw [State.read, hf.mem_eq, hf.platform, State.read]

theorem MemoryFree.comp (hg : MemoryFree g) (hf : MemoryFree f) : MemoryFree fun s => g (f s) where
  mem s m := by rw [hf.mem, hg.mem]
  platform s := (hg.platform _).trans (hf.platform s)
  dma s := (hg.dma _).trans (hf.dma s)
  main s h := hg.main _ (hf.main s h)

/-- An update that keeps the mode as it is, all of it to be seen from the update's definition. -/
theorem MemoryFree.of_rfl (h : ∀ s m, f { s with mem := m } = { f s with mem := m } ∧ (f s).platform = s.platform ∧
    (f s).env.dma = s.env.dma ∧ (f s).ctrlff = s.ctrlff) : MemoryFree f where
  mem s m := (h s m).1
  platform s := by
    obtain ⟨-, hplatform, -, -⟩ := h s s.mem
    exact hplatform
  dma s := by
    obtain ⟨-, -, hdma, -⟩ := h s s.mem
    exact hdma
  main s hmain := by
    obtain ⟨-, -, -, hctrlff⟩ := h s s.mem
    rw [hctrlff, hmain]

theorem MemoryFree.doIf (hf : MemoryFree f) (c : Bool) : MemoryFree fun s => s.doIf c f := by
  cases c
  · exact .of_rfl fun _ _ => ⟨rfl, rfl, rfl, rfl⟩
  · exact hf

end

theorem State.clearAc_memoryFree : MemoryFree State.clearAc := .of_rfl fun _ _ => ⟨rfl, rfl, rfl, rfl⟩
theorem State.clearLink_memoryFree : MemoryFree State.clearLink := .of_rfl fun _ _ => ⟨rfl, rfl, rfl, rfl⟩
theorem State.complementLink_memoryFree : MemoryFree State.complementLink := .of_rfl fun _ _ => ⟨rfl, rfl, rfl, rfl⟩
theorem State.complementAc_memoryFree : MemoryFree State.complementAc := .of_rfl fun _ _ => ⟨rfl, rfl, rfl, rfl⟩
theorem State.incrementAc_memoryFree : MemoryFree State.incrementAc := .of_rfl fun _ _ => ⟨rfl, rfl, rfl, rfl⟩
theorem State.requestHalt_memoryFree : MemoryFree State.requestHalt := .of_rfl fun _ _ => ⟨rfl, rfl, rfl, rfl⟩
theorem State.takeAck_memoryFree : MemoryFree State.takeAck := .of_rfl fun _ _ => ⟨rfl, rfl, rfl, rfl⟩
theorem State.setWaiting_memoryFree (op : Option BusOp) : MemoryFree fun s => { s with waiting := op } :=
  .of_rfl fun _ _ => ⟨rfl, rfl, rfl, rfl⟩
theorem State.setPc_memoryFree (v : Word) : MemoryFree fun s => { s with pc := v } :=
  .of_rfl fun _ _ => ⟨rfl, rfl, rfl, rfl⟩
theorem State.setAc_memoryFree (v : Word) : MemoryFree fun s => { s with ac := v } :=
  .of_rfl fun _ _ => ⟨rfl, rfl, rfl, rfl⟩
theorem State.raiseSp1_memoryFree : MemoryFree State.raiseSp1 := .of_rfl fun _ _ => ⟨rfl, rfl, rfl, rfl⟩
theorem State.raiseSp2_memoryFree : MemoryFree State.raiseSp2 := .of_rfl fun _ _ => ⟨rfl, rfl, rfl, rfl⟩

/-- The field transfer can leave panel mode but not enter it (R63). -/
theorem State.fieldTransfer_memoryFree : MemoryFree State.fieldTransfer where
  mem _ _ := rfl
  platform _ := rfl
  dma _ := rfl
  main s h := by simp [h]

/-- Main mode is not left by a reserved word (R206; log entry 12). -/
theorem State.reservedEffect_memoryFree : MemoryFree State.reservedEffect where
  mem _ _ := rfl
  platform _ := rfl
  dma _ := rfl
  main s h := by simp [h]

theorem State.rotate_memoryFree (rot : Field) : MemoryFree fun s => s.rotate rot := by
  unfold State.rotate
  split <;> exact .of_rfl fun _ _ => ⟨rfl, rfl, rfl, rfl⟩

theorem State.group1_memoryFree (cla cll cma cml : Bool) (rot : Field) (iac : Bool) :
    MemoryFree fun s => s.group1 cla cll cma cml rot iac :=
  (State.rotate_memoryFree rot).comp <| (State.incrementAc_memoryFree.doIf iac).comp <|
    (State.complementLink_memoryFree.doIf cml).comp <| (State.complementAc_memoryFree.doIf cma).comp <|
    (State.clearLink_memoryFree.doIf cll).comp <| State.clearAc_memoryFree.doIf cla

/-- An instruction without bus operations is a memory-free update. -/
theorem exec_memoryFree {i : Instr} (hi : i.usesBus = false) : ∃ f, MemoryFree f ∧ ∀ s, exec i s = .next (f s) := by
  cases i with
  | and | tad | isz | dca | jms | ppc1 | ppc2 | pac1 | pac2 | rtn1 | rtn2 | pop1 | pop2 => cases hi
  | osr | las | wsr | iot => cases hi
  | jmp ind p a =>
    obtain rfl : ind = false := hi
    refine ⟨_, ?_, fun _ => rfl⟩
    exact ⟨fun _ _ => rfl, fun _ => rfl, fun _ => rfl, State.fieldTransfer_memoryFree.main⟩
  | opr1 cla cll cma cml rot iac => exact ⟨_, State.group1_memoryFree cla cll cma cml rot iac, fun _ => rfl⟩
  | opr2 cla sma sza snl sense osr hlt =>
    obtain rfl : osr = false := hi
    refine ⟨_, ?_, fun _ => rfl⟩
    cases cla <;> cases hlt <;> exact .of_rfl fun _ _ => ⟨rfl, rfl, rfl, rfl⟩
  | reserved6200 | reserved6210 | reserved6220 | reserved6230 | reserved6240 | reserved6250 | reserved6260
  | reserved6270 | reserved6204 | reserved6254 | reserved6264 | reserved6274 | reserved6247 | reserved6257
  | reserved6267 | reserved6277 => exact ⟨_, State.reservedEffect_memoryFree, fun _ => rfl⟩
  | _ =>
    refine ⟨_, ?_, fun _ => rfl⟩
    exact .of_rfl fun _ _ => ⟨rfl, rfl, rfl, rfl⟩

/-! ### Relations that main mode keeps -/

/-- A relation between two runs in main mode that all an instruction can do there keeps: the two states differ in memory
only, main memory reads alike in both, and updates, gaps for DMA and writes to main memory keep the relation. -/
structure MainModeRelation (R : State → State → Prop) : Prop where
  mode : ∀ {s s'}, R s s' → s.ctrlff = false
  frame : ∀ {s s'}, R s s' → s' = { s with mem := s'.mem }
  read : ∀ {s s'} {a : Addr}, R s s' → a.space = .main → s'.read a = s.read a
  update : ∀ {s s' f}, R s s' → MemoryFree f → R (f s) (f s')
  gap : ∀ {s s'}, R s s' → R s.dmaGap s'.dmaGap
  write : ∀ {s s'} {a : Addr} (v : Word), R s s' → a.space = .main → R (s.write a v) (s'.write a v)

/-- Two runs of bus operations that come to the same: both are acknowledged and find the same value, or both wait, in
related states. -/
inductive Bus.Related {α : Type} (R : State → State → Prop) : Bus α → Bus α → Prop
  | done (v : α) {t t' : State} (h : R t t') : Related R (.done v t) (.done v t')
  | hung {t t' : State} (h : R t t') : Related R (.hung t) (.hung t')

section
variable {R : State → State → Prop} {α β : Type} {s s' : State}

theorem Bus.Related.state {b b' : Bus α} (h : b.Related R b') : R b.state b'.state := by
  cases h <;> assumption

theorem Bus.Related.andThen {b b' : Bus α} {f f' : α → State → Bus β} (h : b.Related R b')
    (hf : ∀ v t t', R t t' → (f v t).Related R (f' v t')) : (b.andThen f).Related R (b'.andThen f') := by
  cases h with
  | done v ht => exact hf v _ _ ht
  | hung ht => exact .hung ht

theorem Bus.Related.finish {b b' : Bus α} {f f' : α → State → State} (h : b.Related R b')
    (hf : ∀ v t t', R t t' → R (f v t) (f' v t')) : R (b.finish f) (b'.finish f') := by
  cases h with
  | done v ht => exact hf v _ _ ht
  | hung ht => exact ht

theorem Bus.andThen_andThen {γ : Type} (b : Bus α) (f : α → State → Bus β) (g : β → State → Bus γ) :
    (b.andThen f).andThen g = b.andThen fun v t => (f v t).andThen g := by
  cases b <;> rfl

/-- The other state of a related pair is the first one with another memory. -/
theorem MainModeRelation.exists_mem (hR : MainModeRelation R) (h : R s s') : ∃ m, s' = { s with mem := m } :=
  ⟨_, hR.frame h⟩

/-- What does not look at memory is the same in both states. -/
theorem MainModeRelation.same {γ : Type} (hR : MainModeRelation R) (h : R s s') (g : State → γ)
    (hg : ∀ t m, g { t with mem := m } = g t) : g s' = g s := by
  rw [hR.frame h, hg]

theorem State.instrAddr_space {s : State} (h : s.ctrlff = false) (o : Word) : (s.instrAddr o).space = .main :=
  State.ownSpace_of_main h

theorem State.stackAddr_space {s : State} (h : s.ctrlff = false) (o : Word) : (s.stackAddr o).space = .main :=
  State.ownSpace_of_main h

theorem State.dataAddr_space {s : State} (h : s.ctrlff = false) (o : Word) : (s.dataAddr o).space = .main := by
  simp [State.dataAddr, h]

/-! ### Bus operations keep the relation -/

/-- A bus operation whose value does not depend on panel memory and whose effect keeps the relation. -/
theorem MainModeRelation.transact (hR : MainModeRelation R) (h : R s s') (op : BusOp) {f : State → α × State}
    (hv : ∀ t t', R t t' → (f t').1 = (f t).1) (hf : ∀ t t', R t t' → R (f t).2 (f t').2) :
    (s.transact op f).Related R (s'.transact op f) := by
  have hack : s'.acknowledged = s.acknowledged := hR.same h State.acknowledged fun _ _ => rfl
  have htaken := hR.update h State.takeAck_memoryFree
  unfold State.transact
  rw [hack]
  split
  · rw [hv _ _ htaken]
    exact .done _ (hf _ _ htaken)
  · exact .hung (hR.update htaken (State.setWaiting_memoryFree (some op)))

/-- A transaction with a device or the switch register, which does not touch memory. -/
theorem MainModeRelation.transact_device (hR : MainModeRelation R) (h : R s s') (op : BusOp) {f : State → α × State}
    (hv : ∀ t m, (f { t with mem := m }).1 = (f t).1) (hf : MemoryFree fun t => (f t).2) :
    (s.transact op f).Related R (s'.transact op f) :=
  hR.transact h op (fun _ _ ht => hR.same ht (fun t => (f t).1) hv) fun _ _ ht => hR.update ht hf

theorem MainModeRelation.readOp (hR : MainModeRelation R) (h : R s s') {a : Addr} (ha : a.space = .main) :
    (s.readOp a).Related R (s'.readOp a) :=
  hR.transact h (.read a) (fun _ _ ht => hR.read ht ha) fun _ _ ht => ht

theorem MainModeRelation.busRead (hR : MainModeRelation R) (h : R s s') {a : Addr} (ha : a.space = .main) :
    (s.busRead a).Related R (s'.busRead a) :=
  hR.readOp (hR.gap h) ha

theorem MainModeRelation.writeOp (hR : MainModeRelation R) (h : R s s') {a : Addr} (ha : a.space = .main) (v : Word) :
    (s.writeOp a v).Related R (s'.writeOp a v) :=
  hR.transact h (.write a v) (fun _ _ _ => rfl) fun _ _ ht => hR.write v ht ha

theorem MainModeRelation.busWrite (hR : MainModeRelation R) (h : R s s') {a : Addr} (ha : a.space = .main) (v : Word) :
    (s.busWrite a v).Related R (s'.busWrite a v) :=
  hR.writeOp (hR.gap h) ha v

theorem MainModeRelation.busIncrement (hR : MainModeRelation R) (h : R s s') {a : Addr} (ha : a.space = .main) :
    (s.busIncrement a).Related R (s'.busIncrement a) :=
  (hR.busRead h ha).andThen fun v _ _ ht => (hR.writeOp ht ha (v + 1)).andThen fun _ _ _ hu => .done (v + 1) hu

theorem State.effectiveAddress_true (s : State) (p : Bool) (a : BitVec 7) : s.effectiveAddress true p a =
    if autoindex (s.instructionAddress p a) then s.busIncrement (s.instrAddr (s.instructionAddress p a))
    else s.busRead (s.instrAddr (s.instructionAddress p a)) := rfl

theorem MainModeRelation.effectiveAddress (hR : MainModeRelation R) (h : R s s') (i p : Bool) (a : BitVec 7) :
    (s.effectiveAddress i p a).Related R (s'.effectiveAddress i p a) := by
  have hia : s'.instructionAddress p a = s.instructionAddress p a :=
    hR.same h (·.instructionAddress p a) fun _ _ => rfl
  have hpointer : s'.instrAddr = s.instrAddr := hR.same h State.instrAddr fun _ _ => rfl
  have hspace := State.instrAddr_space (hR.mode h) (s.instructionAddress p a)
  cases i with
  | false =>
    have hdirect : s'.effectiveAddress false p a = .done (s.instructionAddress p a) s' := congrArg (Bus.done · s') hia
    rw [hdirect]
    exact .done _ h
  | true =>
    rw [State.effectiveAddress_true, State.effectiveAddress_true, hia, hpointer]
    split
    · exact hR.busIncrement h hspace
    · exact hR.busRead h hspace

/-- What follows the operand's address, which is in main memory. -/
theorem MainModeRelation.operandAddr_andThen (hR : MainModeRelation R) (h : R s s') (i p : Bool) (a : BitVec 7)
    {f : Addr → State → Bus β} (hf : ∀ b t t', b.space = .main → R t t' → (f b t).Related R (f b t')) :
    ((s.operandAddr i p a).andThen f).Related R ((s'.operandAddr i p a).andThen f) := by
  rw [State.operandAddr, State.operandAddr, Bus.andThen_andThen, Bus.andThen_andThen]
  refine (hR.effectiveAddress h i p a).andThen fun ea t t' ht => ?_
  have hoperand : (if i then t'.dataAddr ea else t'.instrAddr ea) = if i then t.dataAddr ea else t.instrAddr ea :=
    hR.same ht (fun u => if i then u.dataAddr ea else u.instrAddr ea) fun _ _ => rfl
  have hspace : (if i then t.dataAddr ea else t.instrAddr ea).space = .main := by
    split
    · exact State.dataAddr_space (hR.mode ht) ea
    · exact State.instrAddr_space (hR.mode ht) ea
  rw [Bus.andThen_done, Bus.andThen_done, hoperand]
  exact hf _ _ _ hspace ht

theorem MainModeRelation.operand (hR : MainModeRelation R) (h : R s s') (i p : Bool) (a : BitVec 7) :
    (s.operand i p a).Related R (s'.operand i p a) :=
  hR.operandAddr_andThen h i p a fun _ _ _ hb ht => hR.busRead ht hb

theorem MainModeRelation.switchBus (hR : MainModeRelation R) (h : R s s') :
    s.switchBus.Related R s'.switchBus := by
  obtain ⟨m, rfl⟩ := hR.exists_mem h
  exact hR.transact_device (hR.gap h) (.switchRead s.df) (fun _ _ => rfl)
    (.of_rfl fun _ _ => ⟨rfl, rfl, rfl, rfl⟩)

theorem MainModeRelation.orSwitch (hR : MainModeRelation R) (h : R s s') : s.orSwitch.Related R s'.orSwitch :=
  (hR.switchBus h).andThen fun v _ _ ht => .done () <|
    hR.update (f := fun t => { t with ac := t.ac ||| v }) ht (.of_rfl fun _ _ => ⟨rfl, rfl, rfl, rfl⟩)

theorem MainModeRelation.switchWrite (hR : MainModeRelation R) (h : R s s') :
    s.switchWrite.Related R s'.switchWrite := by
  obtain ⟨m, rfl⟩ := hR.exists_mem h
  exact hR.transact_device (hR.gap h) (.switchWrite s.df s.ac) (fun _ _ => rfl)
    (.of_rfl fun _ _ => ⟨rfl, rfl, rfl, rfl⟩)

theorem MainModeRelation.deviceBus (hR : MainModeRelation R) (h : R s s') (w : Word) :
    (s.deviceBus w).Related R (s'.deviceBus w) := by
  obtain ⟨m, rfl⟩ := hR.exists_mem h
  exact hR.transact_device (hR.gap h) (.iot w s.df s.ac) (fun _ _ => rfl)
    (.of_rfl fun _ _ => ⟨rfl, rfl, rfl, rfl⟩)

/-! ### Instructions keep the relation -/

/-- A push of a word that does not depend on memory. -/
theorem MainModeRelation.push1 (hR : MainModeRelation R) (h : R s s') (g : State → Word)
    (hg : ∀ t m, g { t with mem := m } = g t) : R (s.push1 (g s)) (s'.push1 (g s')) := by
  have hspace := State.stackAddr_space (hR.mode h) s.sp1
  rw [hR.same h g hg]
  obtain ⟨m, rfl⟩ := hR.exists_mem h
  exact (hR.busWrite h hspace (g s)).finish fun _ _ _ ht =>
    hR.update (f := fun t => { t with sp1 := t.sp1 - 1 }) ht (.of_rfl fun _ _ => ⟨rfl, rfl, rfl, rfl⟩)

theorem MainModeRelation.push2 (hR : MainModeRelation R) (h : R s s') (g : State → Word)
    (hg : ∀ t m, g { t with mem := m } = g t) : R (s.push2 (g s)) (s'.push2 (g s')) := by
  have hspace := State.stackAddr_space (hR.mode h) s.sp2
  rw [hR.same h g hg]
  obtain ⟨m, rfl⟩ := hR.exists_mem h
  exact (hR.busWrite h hspace (g s)).finish fun _ _ _ ht =>
    hR.update (f := fun t => { t with sp2 := t.sp2 - 1 }) ht (.of_rfl fun _ _ => ⟨rfl, rfl, rfl, rfl⟩)

/-- A read of one word of main memory and what is done with the word: pops and returns. -/
theorem MainModeRelation.busRead_finish (hR : MainModeRelation R) (h : R s s') {a a' : Addr} (ha : a.space = .main)
    (haa' : a' = a) {f : Word → State → State} (hf : ∀ v, MemoryFree (f v)) :
    R ((s.busRead a).finish f) ((s'.busRead a').finish f) := by
  rw [haa']
  exact (hR.busRead h ha).finish fun v _ _ ht => hR.update ht (hf v)

theorem State.returnWord_space {s : State} (h : s.ctrlff = false) (sp : Word) : (s.returnWord sp).space = .main := by
  simp [State.returnWord, h]

/-- RTN1 with the word it pops named by the state before it (R140). -/
theorem exec_rtn1_eq (s : State) : exec .rtn1 s =
    .next ((s.raiseSp1.fieldTransfer.busRead (s.returnWord (s.sp1 + 1))).finish fun v u => { u with pc := v }) := by
  rw [exec_rtn1, s.returnAddr_eq_returnWord s.raiseSp1.fieldTransfer rfl rfl]

theorem exec_rtn2_eq (s : State) : exec .rtn2 s =
    .next ((s.raiseSp2.fieldTransfer.busRead (s.returnWord (s.sp2 + 1))).finish fun v u => { u with pc := v }) := by
  rw [exec_rtn2, s.returnAddr_eq_returnWord s.raiseSp2.fieldTransfer rfl rfl]

theorem MainModeRelation.orSwitchIf (hR : MainModeRelation R) (h : R s s') (osr : Bool) :
    (if osr then s.orSwitch else .done () s).Related R (if osr then s'.orSwitch else .done () s') := by
  cases osr
  · exact .done () h
  · exact hR.orSwitch h

theorem MainModeRelation.group2 (hR : MainModeRelation R) (h : R s s') (cla sma sza snl sense osr hlt : Bool) :
    R (s.group2 cla sma sza snl sense osr hlt) (s'.group2 cla sma sza snl sense osr hlt) := by
  have htested := hR.update (f := fun t => t.skipIf (s.skipTest sma sza snl sense)) h
    (.of_rfl fun _ _ => ⟨rfl, rfl, rfl, rfl⟩)
  have hcleared := hR.update htested (State.clearAc_memoryFree.doIf cla)
  obtain ⟨m, rfl⟩ := hR.exists_mem h
  exact (hR.orSwitchIf hcleared osr).finish fun _ _ _ ht => hR.update ht (State.requestHalt_memoryFree.doIf hlt)

/-- JMS from its effective address on: the store and the field transfer, in the platform's order (R71, D5). -/
def State.jmsAt (s : State) (ea : Word) : State :=
  if s.platform.jmsStoreAfterTransfer then
    (s.fieldTransfer.busWrite (s.fieldTransfer.instrAddr ea) s.pc).finish fun _ u => { u with pc := ea + 1 }
  else (s.busWrite (s.instrAddr ea) s.pc).finish fun _ u => { u.fieldTransfer with pc := ea + 1 }

theorem exec_jms_eq_jmsAt (i p : Bool) (a : BitVec 7) (s : State) : exec (.jms i p a) s =
    .next ((s.effectiveAddress i p a).finish fun ea t => t.jmsAt ea) := rfl

/-- JMS stores in main memory in both of its orders: the field transfer does not leave main mode (R71). -/
theorem MainModeRelation.jmsAt (hR : MainModeRelation R) (h : R s s') (ea : Word) : R (s.jmsAt ea) (s'.jmsAt ea) := by
  have hspace := State.instrAddr_space (hR.mode h) ea
  have hmoved := hR.update h State.fieldTransfer_memoryFree
  have hmovedSpace := State.instrAddr_space (hR.mode hmoved) ea
  obtain ⟨m, rfl⟩ := hR.exists_mem h
  unfold State.jmsAt
  cases hp : s.platform.jmsStoreAfterTransfer
  · exact (hR.busWrite h hspace s.pc).finish fun _ _ _ hu =>
      hR.update (hR.update hu State.fieldTransfer_memoryFree) (State.setPc_memoryFree (ea + 1))
  · exact (hR.busWrite hmoved hmovedSpace s.pc).finish fun _ _ _ hu => hR.update hu (State.setPc_memoryFree (ea + 1))

/-- Every instruction that makes bus operations keeps the relation: its addresses are in main memory. -/
theorem MainModeRelation.exec_of_bus (hR : MainModeRelation R) (h : R s s') {i : Instr} (hi : i.usesBus = true) :
    ∃ t t', exec i s = .next t ∧ exec i s' = .next t' ∧ R t t' := by
  cases i with
  | and ind p a =>
    exact ⟨_, _, exec_and .., exec_and .., (hR.operand h ind p a).finish fun v _ _ ht =>
      hR.update (f := fun t => { t with ac := t.ac &&& v }) ht (.of_rfl fun _ _ => ⟨rfl, rfl, rfl, rfl⟩)⟩
  | tad ind p a =>
    exact ⟨_, _, exec_tad .., exec_tad .., (hR.operand h ind p a).finish fun v _ _ ht =>
      hR.update (f := fun t => t.addAc v) ht (.of_rfl fun _ _ => ⟨rfl, rfl, rfl, rfl⟩)⟩
  | isz ind p a =>
    have hcounted := hR.operandAddr_andThen h ind p a (f := fun b t => t.busIncrement b)
      fun _ _ _ hb ht => hR.busIncrement ht hb
    exact ⟨_, _, exec_isz .., exec_isz .., hcounted.finish fun v _ _ ht =>
      hR.update (f := fun t => t.skipIf (v == 0)) ht (.of_rfl fun _ _ => ⟨rfl, rfl, rfl, rfl⟩)⟩
  | dca ind p a =>
    have hstored := hR.operandAddr_andThen h ind p a (f := fun b t => t.busWrite b t.ac) fun b t t' hb ht => by
      have hac : t'.ac = t.ac := hR.same ht State.ac fun _ _ => rfl
      rw [hac]
      exact hR.busWrite ht hb t.ac
    exact ⟨_, _, exec_dca .., exec_dca .., hstored.finish fun _ _ _ ht => hR.update ht State.clearAc_memoryFree⟩
  | jms ind p a =>
    exact ⟨_, _, exec_jms_eq_jmsAt .., exec_jms_eq_jmsAt .., (hR.effectiveAddress h ind p a).finish
      fun ea _ _ ht => hR.jmsAt ht ea⟩
  | jmp ind p a =>
    exact ⟨_, _, exec_jmp .., exec_jmp .., (hR.effectiveAddress h ind p a).finish fun ea _ _ ht =>
      hR.update (hR.update ht State.fieldTransfer_memoryFree) (State.setPc_memoryFree ea)⟩
  | opr2 cla sma sza snl sense osr hlt =>
    exact ⟨_, _, exec_opr2 .., exec_opr2 .., hR.group2 h cla sma sza snl sense osr hlt⟩
  | osr => exact ⟨_, _, exec_osr .., exec_osr .., (hR.orSwitch h).state⟩
  | las => exact ⟨_, _, exec_las .., exec_las .., (hR.orSwitch (hR.update h State.clearAc_memoryFree)).state⟩
  | ppc1 => exact ⟨_, _, exec_ppc1 .., exec_ppc1 .., hR.push1 h (·.pc + 1) fun _ _ => rfl⟩
  | ppc2 => exact ⟨_, _, exec_ppc2 .., exec_ppc2 .., hR.push2 h (·.pc + 1) fun _ _ => rfl⟩
  | pac1 => exact ⟨_, _, exec_pac1 .., exec_pac1 .., hR.push1 h State.ac fun _ _ => rfl⟩
  | pac2 => exact ⟨_, _, exec_pac2 .., exec_pac2 .., hR.push2 h State.ac fun _ _ => rfl⟩
  | wsr =>
    exact ⟨_, _, exec_wsr .., exec_wsr .., (hR.switchWrite h).finish fun _ _ _ ht =>
      hR.update ht State.clearAc_memoryFree⟩
  | iot device op =>
    exact ⟨_, _, exec_iot .., exec_iot .., (hR.deviceBus h _).finish fun d _ _ ht =>
      hR.update (f := fun t => { t.skipIf d.skipLow with
        ac := d.accumulator t.ac, intgntff := t.intgntff && t.ctrlff }) ht (.of_rfl fun _ _ => ⟨rfl, rfl, rfl, rfl⟩)⟩
  | rtn1 =>
    have hmoved := hR.update (hR.update h State.raiseSp1_memoryFree) State.fieldTransfer_memoryFree
    have hword := hR.same h (fun t => t.returnWord (t.sp1 + 1)) fun _ _ => rfl
    exact ⟨_, _, exec_rtn1_eq .., exec_rtn1_eq ..,
      hR.busRead_finish hmoved (State.returnWord_space (hR.mode h) _) hword State.setPc_memoryFree⟩
  | rtn2 =>
    have hmoved := hR.update (hR.update h State.raiseSp2_memoryFree) State.fieldTransfer_memoryFree
    have hword := hR.same h (fun t => t.returnWord (t.sp2 + 1)) fun _ _ => rfl
    exact ⟨_, _, exec_rtn2_eq .., exec_rtn2_eq ..,
      hR.busRead_finish hmoved (State.returnWord_space (hR.mode h) _) hword State.setPc_memoryFree⟩
  | pop1 =>
    have hraised := hR.update h State.raiseSp1_memoryFree
    have hword := hR.same h (fun t => t.raiseSp1.stackAddr (t.sp1 + 1)) fun _ _ => rfl
    exact ⟨_, _, exec_pop1 .., exec_pop1 ..,
      hR.busRead_finish hraised (State.stackAddr_space (hR.mode hraised) _) hword State.setAc_memoryFree⟩
  | pop2 =>
    have hraised := hR.update h State.raiseSp2_memoryFree
    have hword := hR.same h (fun t => t.raiseSp2.stackAddr (t.sp2 + 1)) fun _ _ => rfl
    exact ⟨_, _, exec_pop2 .., exec_pop2 ..,
      hR.busRead_finish hraised (State.stackAddr_space (hR.mode hraised) _) hword State.setAc_memoryFree⟩
  | _ => cases hi

/-- Every instruction executed in main mode keeps the relation. -/
theorem MainModeRelation.exec_next (hR : MainModeRelation R) (h : R s s') {i : Instr} {t : State}
    (he : exec i s = .next t) : ∃ t', exec i s' = .next t' ∧ R t t' := by
  cases hi : i.usesBus with
  | false =>
    obtain ⟨f, hf, hexec⟩ := exec_memoryFree hi
    obtain rfl := Host.Outcome.next.inj ((hexec s).symm.trans he)
    exact ⟨f s', hexec s', hR.update h hf⟩
  | true =>
    obtain ⟨u, u', hu, hu', hrel⟩ := hR.exec_of_bus h hi
    obtain rfl := Host.Outcome.next.inj (hu.symm.trans he)
    exact ⟨u', hu', hrel⟩

end

/-! ### A run in main mode stores nothing in panel memory (R206) -/

/-- `t` is in main mode, and what has been stored in panel memory since `s` is the DMA device's. -/
structure State.MainRun (s t : State) : Prop where
  mode : t.ctrlff = false
  dma : ∀ a, t.dmaMayWrite a → s.dmaMayWrite a
  kept : PanelMemoryKept s t

theorem State.MainRun.refl {s : State} (h : s.ctrlff = false) : s.MainRun s :=
  ⟨h, fun _ => id, fun _ _ _ => rfl⟩

theorem MemoryFree.dmaMayWrite_iff {f : State → State} (hf : MemoryFree f) (s : State) (a : Addr) :
    (f s).dmaMayWrite a ↔ s.dmaMayWrite a := by
  rw [State.dmaMayWrite, hf.dma, State.dmaMayWrite]

theorem State.MainRun.update {s t : State} {f : State → State} (h : s.MainRun t) (hf : MemoryFree f) :
    s.MainRun (f t) where
  mode := hf.main t h.mode
  dma a ha := h.dma a ((hf.dmaMayWrite_iff t a).mp ha)
  kept x o hd := (hf.read_eq t _).trans (h.kept x o hd)

theorem State.MainRun.dmaGap {s t : State} (h : s.MainRun t) : s.MainRun t.dmaGap where
  mode := h.mode
  dma a ha := h.dma a (State.dmaGap_dmaMayWrite ha)
  kept x o hd := (State.dmaGap_read fun ht => hd (h.dma _ ht)).trans (h.kept x o hd)

theorem State.MainRun.write {s t : State} (h : s.MainRun t) {a : Addr} (ha : a.space = .main) (v : Word) :
    s.MainRun (t.write a v) where
  mode := h.mode
  dma := h.dma
  kept x o hd := by
    have hne : (⟨.panel, x, o⟩ : Addr) ≠ a := by
      rintro rfl
      cases ha
    exact (State.read_write_other hne).trans (h.kept x o hd)

/-- One run beside itself. -/
theorem State.mainRun_relation (s : State) : MainModeRelation fun t t' => t' = t ∧ s.MainRun t where
  mode := fun ⟨_, h⟩ => h.mode
  frame := fun ⟨rfl, _⟩ => rfl
  read := fun ⟨rfl, _⟩ _ => rfl
  update := fun ⟨rfl, h⟩ hf => ⟨rfl, h.update hf⟩
  gap := fun ⟨rfl, h⟩ => ⟨rfl, h.dmaGap⟩
  write := fun v ⟨rfl, h⟩ ha => ⟨rfl, h.write ha v⟩

/-- Settles O9: that a run has not left main mode and has stored nothing in panel memory is kept by every instruction. -/
theorem mainModeCannotReachPanelMemory : Obligations.MainModeCannotReachPanelMemory := by
  intro i s t hmain he
  obtain ⟨_, _, _, hrun⟩ := s.mainRun_relation.exec_next ⟨rfl, State.MainRun.refl hmain⟩ he
  exact ⟨hrun.mode, hrun.kept⟩

/-! ### Two runs in main mode that differ in panel memory only (R206) -/

/-- The two states are in main mode, with no DMA to come, and differ in panel memory only. -/
structure State.MainAlike (s s' : State) : Prop where
  mode : s.ctrlff = false
  dma : s.env.dma = []
  wf : s.mem.wf = true
  wf' : s'.mem.wf = true
  agree : AgreeButPanelMemory s s'

section
variable {s s' : State}

/-- A write to a word that is not RAM changes nothing (R46). -/
theorem State.write_not_ram {a : Addr} {v : Word} (h : s.platform.kindOf a ≠ .ram) : s.write a v = s := by
  rw [State.write, Memory.write_not_ram h]

theorem State.MainAlike.read (h : s.MainAlike s') {a : Addr} (ha : a.space = .main) : s'.read a = s.read a := by
  obtain ⟨space, f, o⟩ := a
  obtain rfl : space = .main := ha
  exact h.agree.2 f o

theorem State.MainAlike.platform (h : s.MainAlike s') : s'.platform = s.platform := by
  rw [h.agree.1]

theorem State.MainAlike.env (h : s.MainAlike s') : s'.env = s.env := by
  rw [h.agree.1]

theorem State.MainAlike.update {f : State → State} (h : s.MainAlike s') (hf : MemoryFree f) :
    (f s).MainAlike (f s') where
  mode := hf.main s h.mode
  dma := (hf.dma s).trans h.dma
  wf := by rw [hf.mem_eq, h.wf]
  wf' := by rw [hf.mem_eq, h.wf']
  agree := by
    refine ⟨?frame, fun x o => ?read⟩
    case frame => rw [hf.mem_eq, ← hf.mem, ← h.agree.1]
    case read => rw [hf.read_eq, hf.read_eq, h.agree.2]

/-- With no DMA to come a gap is nothing. -/
theorem State.MainAlike.dmaGap (h : s.MainAlike s') : s.dmaGap.MainAlike s'.dmaGap := by
  have hdma : s'.env.dma = [] := by rw [h.env, h.dma]
  rwa [State.dmaGap_idle h.dma, State.dmaGap_idle hdma]

/-- A word written to main memory reads alike in both: RAM holds it in both, what is not RAM is as it was. -/
theorem State.MainAlike.read_write (h : s.MainAlike s') {a b : Addr} (hb : b.space = .main) (v : Word) :
    (s'.write a v).read b = (s.write a v).read b := by
  by_cases hba : b = a
  · obtain rfl := hba
    by_cases hram : s.platform.kindOf b = .ram
    · have hram' : s'.platform.kindOf b = .ram := by rw [h.platform, hram]
      rw [State.read_write_same h.wf hram, State.read_write_same h.wf' hram']
    · have hram' : s'.platform.kindOf b ≠ .ram := by rwa [h.platform]
      rw [State.write_not_ram hram, State.write_not_ram hram', h.read hb]
  · rw [State.read_write_other hba, State.read_write_other hba, h.read hb]

theorem State.MainAlike.write (h : s.MainAlike s') (a : Addr) (v : Word) :
    (s.write a v).MainAlike (s'.write a v) where
  mode := h.mode
  dma := h.dma
  wf := Memory.write_wf h.wf
  wf' := Memory.write_wf h.wf'
  agree := by
    refine ⟨?frame, fun f o => h.read_write rfl v⟩
    case frame =>
      rw [h.agree.1]
      rfl

end

theorem State.mainAlike_relation : MainModeRelation State.MainAlike where
  mode h := h.mode
  frame h := h.agree.1
  read h ha := h.read ha
  update h hf := h.update hf
  gap h := h.dmaGap
  write v h _ := h.write _ v

/-- Settles O10: that two runs differ in panel memory only is kept by every instruction. -/
theorem mainModeLearnsNothingOfPanelMemory : Obligations.MainModeLearnsNothingOfPanelMemory := by
  intro i s s' t hmain hdma hwf hwf' hagree he
  obtain ⟨t', he', halike⟩ := State.mainAlike_relation.exec_next ⟨hmain, hdma, hwf, hwf', hagree⟩ he
  exact ⟨t', he', halike.agree⟩

end Sys2Proof.Machine
end

section
/-! The memory extension instructions (R172 to R178): the fields loaded, and the fields read into their places in AC. -/

namespace Sys2Proof

/-! ### Fields in a word (R7, R175, R177) -/

theorem bits3_or (u v : Word) (a : Nat) : bits3 (u ||| v) a = bits3 u a ||| bits3 v a :=
  BitVec.extractLsb'_or

theorem bits3_and (u v : Word) (a : Nat) : bits3 (u &&& v) a = bits3 u a &&& bits3 v a :=
  BitVec.extractLsb'_and

/-- A field placed in bits 6 to 8 is alone there. -/
theorem bits3_fieldAt6 (f : Field) :
    bits3 (fieldAt6 f) 0 = 0 ∧ bits3 (fieldAt6 f) 3 = 0 ∧ bits3 (fieldAt6 f) 6 = f ∧ bits3 (fieldAt6 f) 9 = 0 := by
  revert f
  decide

/-- A field placed in bits 9 to 11 is alone there. -/
theorem bits3_fieldAt9 (f : Field) :
    bits3 (fieldAt9 f) 0 = 0 ∧ bits3 (fieldAt9 f) 3 = 0 ∧ bits3 (fieldAt9 f) 6 = 0 ∧ bits3 (fieldAt9 f) 9 = f := by
  revert f
  decide

/-- Bits 6 to 8 replaced by a field: the mask 7707 keeps the other three digits (R175, R176). -/
theorem bits3_replace6 (w : Word) (f : Field) :
    bits3 ((w &&& 0o7707) ||| fieldAt6 f) 6 = f ∧ bits3 ((w &&& 0o7707) ||| fieldAt6 f) 0 = bits3 w 0 ∧
      bits3 ((w &&& 0o7707) ||| fieldAt6 f) 3 = bits3 w 3 ∧ bits3 ((w &&& 0o7707) ||| fieldAt6 f) 9 = bits3 w 9 := by
  have hmask : bits3 0o7707 0 = 7 ∧ bits3 0o7707 3 = 7 ∧ bits3 0o7707 6 = 0 ∧ bits3 0o7707 9 = 7 := by decide
  have hall : ∀ x : Field, x &&& 7 = x := fun _ => BitVec.and_allOnes
  simp only [bits3_or, bits3_and, hmask, bits3_fieldAt6, hall]
  simp

/-- Bits 6 to 11 replaced by two fields: the mask 7700 keeps the other two digits (R177). -/
theorem bits3_replace6and9 (w : Word) (f g : Field) :
    bits3 ((w &&& 0o7700) ||| fieldAt6 f ||| fieldAt9 g) 6 = f ∧
      bits3 ((w &&& 0o7700) ||| fieldAt6 f ||| fieldAt9 g) 9 = g ∧
      bits3 ((w &&& 0o7700) ||| fieldAt6 f ||| fieldAt9 g) 0 = bits3 w 0 ∧
      bits3 ((w &&& 0o7700) ||| fieldAt6 f ||| fieldAt9 g) 3 = bits3 w 3 := by
  have hmask : bits3 0o7700 0 = 7 ∧ bits3 0o7700 3 = 7 ∧ bits3 0o7700 6 = 0 ∧ bits3 0o7700 9 = 0 := by decide
  have hall : ∀ x : Field, x &&& 7 = x := fun _ => BitVec.and_allOnes
  simp only [bits3_or, bits3_and, hmask, bits3_fieldAt6, bits3_fieldAt9, hall]
  simp

end Sys2Proof

namespace Sys2Proof.Machine

/-! ### What each instruction leaves -/

theorem exec_cdf (s : State) (x : Field) : exec (.cdf x) s = .next { s with df := x } := rfl
theorem exec_cif (s : State) (x : Field) : exec (.cif x) s = .next { s with ib := x, iiff := true } := rfl

theorem exec_cdfCif (s : State) (x : Field) :
    exec (.cdfCif x) s = .next { s with df := x, ib := x, iiff := true } := rfl

theorem exec_rdf (s : State) : exec .rdf s = .next { s with ac := (s.ac &&& 0o7707) ||| fieldAt6 s.df } := rfl
theorem exec_rif (s : State) : exec .rif s = .next { s with ac := (s.ac &&& 0o7707) ||| fieldAt6 s.ifr } := rfl

theorem exec_rib (s : State) :
    exec .rib s = .next { s with ac := (s.ac &&& 0o7700) ||| fieldAt6 s.isf ||| fieldAt9 s.dsf } := rfl

/-- Settles O51: the four loads, from the instruction or from the save fields. -/
theorem fieldLoads : Obligations.FieldLoads :=
  fun s x => ⟨exec_cdf s x, exec_cif s x, exec_cdfCif s x, exec_rmf s⟩

/-- Settles O52: the masks clear exactly the digits that the fields are put in. -/
theorem fieldReads : Obligations.FieldReads :=
  fun s => ⟨⟨_, exec_rdf s, rfl, bits3_replace6 s.ac s.df⟩, ⟨_, exec_rif s, rfl, bits3_replace6 s.ac s.ifr⟩,
    ⟨_, exec_rib s, rfl, bits3_replace6and9 s.ac s.isf s.dsf⟩⟩

end Sys2Proof.Machine
end

section
/-! External input and output (R180 to R183) where the device acknowledges, and the reserved internal IOT words (R184). -/

namespace Sys2Proof.Machine

/-! ### The external IOT -/

/-- The environment after an acknowledged device transaction and the gap for DMA before it. -/
def State.deviceEnv (s : State) (w : Word) : Env :=
  { s.dmaGap.env with
    acks := s.env.acks.drop 1, waited := s.env.waited + ((s.env.acks.take 1).map Ack.wait).sum,
    answers := s.env.answers.tail, bus := .iot w s.df s.ac :: s.dmaGap.env.bus }

theorem State.deviceBus_eq {s : State} (w : Word) (h : s.Acknowledges 1) : s.deviceBus w =
    .done (s.deviceAnswer w) { s.dmaGap with env := s.deviceEnv w, fresh := s.fresh + 1 } := by
  rw [State.deviceBus_done w h, State.deviceEnv, ← s.takeAck_head, List.drop_one]
  rfl

theorem exec_iot_done {s : State} (device : BitVec 6) (op : Field) (h : s.Acknowledges 1) :
    exec (.iot device op) s = .next { s.dmaGap with
      ac := (s.deviceAnswer (encode (.iot device op))).accumulator s.ac
      pc := if (s.deviceAnswer (encode (.iot device op))).skipLow then s.pc + 1 else s.pc
      intgntff := s.ctrlff && s.intgntff
      env := s.deviceEnv (encode (.iot device op))
      fresh := s.fresh + 1 } := by
  rw [exec_iot, State.deviceBus_eq _ h, Bus.finish_done, Bool.and_comm]
  rfl

/-- What C1 and C0 choose (R181). -/
theorem accumulator_cases (d : DevAnswer) (ac : Word) :
    (d.c1Low = false → d.c0Low = false → d.accumulator ac = ac) ∧
      (d.c1Low = false → d.c0Low = true → d.accumulator ac = 0) ∧
      (d.c1Low = true → d.c0Low = false → d.accumulator ac = ac ||| d.data) ∧
      (d.c1Low = true → d.c0Low = true → d.accumulator ac = d.data) := by
  refine ⟨?_, ?_, ?_, ?_⟩ <;> intro h1 h0 <;> simp [DevAnswer.accumulator, h1, h0]

/-- Settles O53: an acknowledged IOT is the device's answer put into AC, PC and the grant flip flop. -/
theorem externalIotTransfer : Obligations.ExternalIotTransfer := by
  intro s device op hack w d b
  obtain ⟨hkept, hcleared, hored, hloaded⟩ := accumulator_cases d s.ac
  exact ⟨_, exec_iot_done device op hack, hkept, hcleared, hored, hloaded, rfl⟩

/-! ### The reserved internal IOT words -/

theorem exec_reserved {i : Instr} (hi : i.isReserved = true) (s : State) : exec i s = .next s.reservedEffect := by
  cases i with
  | reserved6200 | reserved6210 | reserved6220 | reserved6230 | reserved6240 | reserved6250 | reserved6260
  | reserved6270 | reserved6204 | reserved6254 | reserved6264 | reserved6274 | reserved6247 | reserved6257
  | reserved6267 | reserved6277 => rfl
  | _ => cases hi

/-- Settles O54: the one effect of the 16 words, and that it is within their frame. -/
theorem reservedWordsTouchOnlyAcLinkAndFlags : Obligations.ReservedWordsTouchOnlyAcLinkAndFlags := by
  intro i s hi
  have hframe := s.reservedEffect_execFrame hi
  refine ⟨s.reservedEffect, exec_reserved hi s, rfl, hframe.main, fun hiiff => ?fields⟩
  case fields =>
    obtain ⟨hib, -⟩ : s.ib = s.ifr ∧ _ := by simpa using hiiff
    exact hib

end Sys2Proof.Machine
end

section
/-! The step (R188): the priority network with the output pins, a panel entry and an interrupt grant whose store is
acknowledged, and the step that fetches and executes. -/

namespace Sys2Proof.Machine

/-! ### The priority network (R189 to R193) -/

section
variable {s : State}

theorem State.decision_of_panelGrantable (hs : s.Serving) (hn : s.nogrant = false) (hp : s.panelGrantable = true) :
    s.decision = .panelEntry := by
  simp [State.decision_of_serving hs, hn, hp]

theorem State.decision_of_noRequest (hs : s.Serving) (hn : s.nogrant = false) (hp : s.panelGrantable = false)
    (hi : s.interruptGrantable = false) : s.decision = .fetch := by
  simp [State.decision_of_serving hs, hn, hp, hi]

theorem State.decision_of_held
    (h : s.pins.resetLow = true ∨ s.waiting ≠ none ∨ s.pins.dmareqLow = true ∨ s.running = false) :
    s.decision = .hold := by
  refine State.decision_of_not_serving fun ⟨hreset, hwaiting, hdmareq, hrunning⟩ => ?_
  simp [hreset, hwaiting, hdmareq, hrunning] at h

end

theorem State.panelGrantable_iff (s : State) : s.panelGrantable = true ↔
    (s.pwron = true ∨ s.pnltrp = true ∨ s.hltflg = true ∨ s.btstrp = true) ∧ s.ctrlff = false ∧
      s.iiff = false := by
  simp [State.panelGrantable, and_assoc, or_assoc]

theorem State.interruptGrantable_iff (s : State) : s.interruptGrantable = true ↔
    s.pins.intreqLow = true ∧ s.ieff = true ∧ s.iiff = false ∧ s.ctrlff = false := by
  simp [State.interruptGrantable, and_assoc]

/-! ### The output pins at a boundary -/

theorem State.intgntLow_iff (s : State) : s.intgntLow = true ↔ s.intgntff = true ∧ s.ctrlff = false := by
  simp [State.intgntLow]

theorem State.runOutLow_iff (s : State) : s.runOutLow = true ↔ s.running = true ∧ s.pins.resetLow = false := by
  simp [State.runOutLow]

theorem State.dmagntHigh_iff (s : State) :
    s.dmagntHigh = true ↔ s.pins.dmareqLow = true ∧ s.pins.resetLow = false ∧ s.waiting = none := by
  simp [State.dmagntHigh, and_assoc]

/-- Reset clears the grant flip flop, so INTGNT is high while RESET is held (R214). -/
theorem State.HeldInReset.intgntLow {s : State} (h : s.HeldInReset) (hr : s.pins.resetLow = true) :
    s.intgntLow = false := by
  simp [State.intgntLow, h hr]

/-- IFETCH is low where a fetch waits, or where nothing waits and the network decides to fetch (R188, R214). -/
theorem State.ifetchLow_iff (s : State) : s.ifetchLow = true ↔
    s.pins.resetLow = false ∧ (s.decision = .fetch ∨ ∃ a, s.waiting = some (.fetch a)) := by
  unfold State.ifetchLow
  split
  case h_1 a hw => simp [hw]
  case h_2 hw =>
    have hnone : ¬ ∃ a, s.waiting = some (.fetch a) := fun ⟨a, ha⟩ => hw a ha
    have hreset : s.decision = .fetch → s.pins.resetLow = false := fun hd =>
      (State.decision_serving (s := s) (by simp [hd])).1
    simp only [beq_iff_eq, hnone, or_false]
    exact ⟨fun hd => ⟨hreset hd, hd⟩, And.right⟩

/-- Settles O16: the network's order, what is grantable, and each output pin as its formula. -/
theorem priorityNetworkOrderAndOutputPins : Obligations.PriorityNetworkOrderAndOutputPins :=
  fun s => ⟨State.decision_of_held, State.decision_of_nogrant, State.decision_of_panelGrantable,
    State.decision_of_interruptGrantable, State.decision_of_noRequest, s.panelGrantable_iff, s.interruptGrantable_iff,
    s.intgntLow_iff, State.HeldInReset.intgntLow, s.runOutLow_iff, s.dmagntHigh_iff, s.ifetchLow_iff⟩

/-! ### A panel entry and an interrupt grant (R194, R197) -/

theorem State.movePin_foldl_platform (ms : List PinMove) (s : State) :
    (ms.foldl State.movePin s).platform = s.platform := by
  induction ms generalizing s with
  | nil => rfl
  | cons m rest ih => rw [List.foldl_cons, ih, State.movePin_platform]

theorem State.boundary_platform (s : State) : s.boundary.platform = s.platform := by
  have hmoved : s.movePins.platform = s.platform := State.movePin_foldl_platform _ _
  unfold State.boundary State.boundaryGap
  split <;> exact hmoved

/-- `t` is what the store of PC in the word `a` leaves when it is acknowledged, with no gap of its own. -/
structure State.StoredPc (s : State) (a : Addr) (t : State) : Prop where
  frame : t = { s with mem := t.mem, env := t.env }
  env : EnvAfter 0 1 s t
  stored : s.mem.wf = true → s.platform.kindOf a = .ram → t.read a = s.pc
  kept : ∀ b, b ≠ a → t.read b = s.read b

theorem State.write_storedPc (s : State) (a : Addr) : s.StoredPc a (s.takeAck.write a s.pc) where
  frame := rfl
  env := s.takeAck_envAfter.of_env rfl rfl
  stored := State.read_write_same (s := s.takeAck)
  kept _ := State.read_write_other (s := s.takeAck)

/-- A panel entry whose store is acknowledged, with its time (R197). -/
theorem State.exists_panelEntry {s : State} (hack : s.Acknowledges 1) : ∃ w, s.StoredPc ⟨.panel, 0, 0⟩ w ∧
    s.panelEntry.spend none =
      { w with ctrlff := true, fz := true, pdf := false, pc := 0o7777, untimed := s.untimed + 1 } := by
  refine ⟨_, s.write_storedPc _, ?_⟩
  rw [State.panelEntry_done hack]
  rfl

/-- A device interrupt grant whose store is acknowledged, with its time (R194, R231). -/
theorem State.exists_interruptGrant {s : State} (hack : s.Acknowledges 1) (hwaiting : s.waiting = none) :
    ∃ w, s.StoredPc ⟨.main, 0, 0⟩ w ∧ s.interruptGrant.spendIfDone (some 4) = { w with
      ieff := false, intgntff := true, isf := s.ifr, dsf := s.df, ifr := 0, ib := 0, df := 0, pc := 1,
      nogrant := s.nogrant || !s.platform.consultAfterGrant, clocks := s.clocks + 2 * 4 } := by
  refine ⟨_, s.write_storedPc _, ?_⟩
  have hdone : s.interruptGrant.waiting = none := by rw [State.interruptGrant_done hack, ← hwaiting]; rfl
  rw [State.spendIfDone_of_done hdone, State.interruptGrant_done hack]
  rfl

/-- Settles O17: the entry is one acknowledged store and the moves of its flags. -/
theorem panelEntryStep : Obligations.PanelEntryStep := by
  intro s hd hack
  obtain ⟨w, ⟨hframe, henv, hstored, hkept⟩, heq⟩ := State.exists_panelEntry hack
  rw [s.boundary_platform] at hstored
  refine ⟨_, (step_of_panelEntry hd).trans (congrArg _ heq), ?frame, henv.of_env rfl rfl, hstored, hkept⟩
  case frame => rw [hframe]

/-- Settles O18: the grant is one acknowledged store and the moves of fields and flags, in 4 minor cycles. -/
theorem interruptGrantStep : Obligations.InterruptGrantStep := by
  intro s hd hack
  obtain ⟨⟨_, hwaiting, _, _⟩, hnogrant, _, _⟩ := State.decision_interruptGrant hd
  obtain ⟨w, ⟨hframe, henv, hstored, hkept⟩, heq⟩ := State.exists_interruptGrant hack hwaiting
  rw [hnogrant, Bool.false_or, s.boundary_platform] at heq
  rw [s.boundary_platform] at hstored
  refine ⟨_, (step_of_interruptGrant hd).trans (congrArg _ heq), ?frame, henv.of_env rfl rfl, hstored, hkept⟩
  case frame => rw [hframe]

/-! ### A step that fetches (R188 step 7) -/

/-- The record of time as two sums: clock periods where a count is stated, else one more untimed sequence (R231). -/
theorem State.spend_eq (s : State) (n : Option Nat) :
    s.spend n = { s with clocks := s.clocks + 2 * n.getD 0, untimed := s.untimed + if n.isNone then 1 else 0 } := by
  cases n <;> rfl

theorem State.spendIfDone_eq (s : State) (n : Option Nat) :
    s.spendIfDone n = s.spend (if s.waiting = none then n else none) := by
  rw [State.spendIfDone]
  cases s.waiting <;> rfl

/-- The state after an acknowledged fetch, with the environment's lists as the statements write them. -/
theorem State.fetched_eq (s : State) : s.fetched = { s with
    ol := s.pc
    ir := s.read (s.instrAddr s.pc)
    pc := s.pc + 1
    nogrant := false
    env := { s.env with
      acks := s.env.acks.drop 1, waited := s.env.waited + ((s.env.acks.take 1).map Ack.wait).sum } } := by
  rw [State.fetched, State.takeAck, s.takeAck_head, List.drop_one]

/-- Where the fetch is acknowledged, the instruction fetched is executed, TEMP takes its free value and the time is
recorded. -/
theorem State.runInstruction_of_decode {s t : State} {i : Instr} (hack : s.Acknowledges 1)
    (hi : decodeWord s.ctrlff (s.read (s.instrAddr s.pc)) = i) (he : exec i s.fetched = .next t) :
    s.runInstruction = .next (t.latchTemp.spendIfDone (minorCycles i s.fetched t)) := by
  have hcurrent : s.fetched.current = i := hi
  rw [← hcurrent] at he ⊢
  exact State.runInstruction_done (State.fetch_done hack) he

/-- Settles O15: the step is the instruction's meaning on the fetched state, with TEMP and the time recorded after it. -/
theorem stepRunsTheDecodedInstruction : Obligations.StepRunsTheDecodedInstruction := by
  intro s t i hd hack hi f n he
  have hf : s.boundary.fetched = f := s.boundary.fetched_eq
  rw [step_of_fetch hd, State.runInstruction_of_decode hack hi (by rw [hf, he]), hf, State.spendIfDone_eq,
    State.spend_eq]
  rfl

end Sys2Proof.Machine
end

section
/-! Every instruction completes (R187), and the minor cycles of each (R231). -/

namespace Sys2Proof.Machine

/-! ### No bus operation is left waiting where all are acknowledged -/

theorem State.pointerAcks_le_two (s : State) (i p : Bool) (a : BitVec 7) : s.pointerAcks i p a ≤ 2 := by
  unfold State.pointerAcks
  split
  · split <;> decide
  · decide

/-- Four acknowledgements are enough for a pointer and two more operations, the most any instruction makes (R64, R69). -/
theorem State.exists_pointerFound_of_four {s : State} (h : s.Acknowledges 4) (i p : Bool) (a : BitVec 7) :
    ∃ ea t, s.PointerFound i p a ea t ∧ t.waiting = s.waiting ∧ t.Acknowledges 2 := by
  have hle := s.pointerAcks_le_two i p a
  obtain ⟨ea, t, hf, ht⟩ := State.exists_pointerFound (n := 2) (h.mono (show s.pointerAcks i p a + 2 ≤ 4 by omega))
  exact ⟨ea, t, hf, by rw [hf.frame], ht⟩

theorem exec_waiting_of_bus {i : Instr} {s : State} (hi : i.usesBus = true) (h : s.Acknowledges 4) :
    ∃ t, exec i s = .next t ∧ t.waiting = s.waiting := by
  have h1 : s.Acknowledges 1 := h.mono (by decide)
  cases i with
  | and ind p a =>
    obtain ⟨ea, t, hf, hw, ht⟩ := State.exists_pointerFound_of_four h ind p a
    obtain ⟨u, hu, hframe, -⟩ := exec_and_done hf.operandAddr (ht.mono (by decide))
    exact ⟨u, hu, by rw [hframe, hw]⟩
  | tad ind p a =>
    obtain ⟨ea, t, hf, hw, ht⟩ := State.exists_pointerFound_of_four h ind p a
    obtain ⟨u, hu, hframe, -⟩ := exec_tad_done hf.operandAddr (ht.mono (by decide))
    exact ⟨u, hu, by rw [hframe, State.addAc_waiting, hw]⟩
  | isz ind p a =>
    obtain ⟨ea, t, hf, hw, ht⟩ := State.exists_pointerFound_of_four h ind p a
    obtain ⟨u, hu, hframe, -⟩ := exec_isz_done hf.operandAddr ht
    exact ⟨u, hu, by rw [hframe, hw]⟩
  | dca ind p a =>
    obtain ⟨ea, t, hf, hw, ht⟩ := State.exists_pointerFound_of_four h ind p a
    obtain ⟨u, hu, hframe, -⟩ := exec_dca_done hf.operandAddr (ht.mono (by decide))
    exact ⟨u, hu, by rw [hframe, hw]⟩
  | jms ind p a =>
    obtain ⟨ea, t, hf, hw, ht⟩ := State.exists_pointerFound_of_four h ind p a
    obtain ⟨u, hu, hframe, -⟩ := exec_jms_done hf.found (ht.mono (by decide))
    exact ⟨u, hu, by rw [hframe, State.fieldTransfer_waiting, hw]⟩
  | jmp ind p a =>
    obtain ⟨ea, t, hf, hw, -⟩ := State.exists_pointerFound_of_four h ind p a
    exact ⟨_, exec_jmp_found hf.found, hw⟩
  | opr2 cla sma sza snl sense osr hlt =>
    obtain rfl : osr = true := hi
    exact ⟨_, (exec_opr2 ..).trans (congrArg _ (State.group2_switch_eq h1 ..)), rfl⟩
  | osr => exact ⟨_, exec_osr_done h1, rfl⟩
  | las => exact ⟨_, exec_las_done h1, rfl⟩
  | wsr => exact ⟨_, exec_wsr_done h1, rfl⟩
  | iot device op => exact ⟨_, exec_iot_done device op h1, rfl⟩
  | ppc1 | pac1 => exact ⟨_, congrArg Host.Outcome.next (State.push1_done h1), rfl⟩
  | ppc2 | pac2 => exact ⟨_, congrArg Host.Outcome.next (State.push2_done h1), rfl⟩
  | pop1 => exact ⟨_, exec_pop1_done h1, rfl⟩
  | pop2 => exact ⟨_, exec_pop2_done h1, rfl⟩
  | rtn1 => exact ⟨_, exec_rtn1_done h1, rfl⟩
  | rtn2 => exact ⟨_, exec_rtn2_done h1, rfl⟩
  | _ => cases hi

/-- Settles O7: an instruction with bus operations ends in the state its acknowledged operations give, any other makes
none to wait for. -/
theorem everyInstructionCompletes : Obligations.EveryInstructionCompletes := by
  intro i s
  refine ⟨exec_completes i s, fun t he hack => ?_⟩
  cases hi : i.usesBus with
  | false => exact (exec_of_no_bus hi he).waiting
  | true =>
    obtain ⟨u, hu, hwaiting⟩ := exec_waiting_of_bus hi hack
    obtain rfl := Host.Outcome.next.inj (hu.symm.trans he)
    exact hwaiting

/-! ### The minor cycles (R231) -/

/-- The column of a memory reference row by the range of the instruction address. -/
theorem State.addressCycles_eq (s : State) (i p : Bool) (a : BitVec 7) (direct pointer auto : Nat) :
    s.addressCycles i p a direct pointer auto = if i = false then direct
      else if 8 ≤ (s.instructionAddress p a).toNat ∧ (s.instructionAddress p a).toNat ≤ 15 then auto
      else pointer := by
  simp only [State.addressCycles, autoindex_iff, Bool.not_eq_true']

/-- The columns of every row rise from left to right, so the first and the last bound the count. -/
theorem State.addressCycles_bounds (s : State) (i p : Bool) (a : BitVec 7) {direct pointer auto : Nat}
    (h : direct ≤ pointer) (h' : pointer ≤ auto) :
    direct ≤ s.addressCycles i p a direct pointer auto ∧ s.addressCycles i p a direct pointer auto ≤ auto := by
  rw [State.addressCycles_eq]
  split
  · omega
  · split <;> omega

/-- A group 1 word has a count but for rotate code 111 (R74, R231). -/
theorem minorCycles_opr1 (cla cll cma cml : Bool) (rot : Field) (iac : Bool) (s t : State) :
    minorCycles (.opr1 cla cll cma cml rot iac) s t =
      if rot = 7 then none else some (if rot = 1 ∨ rot = 3 ∨ rot = 5 then 8 else 6) := rfl

/-- The instructions without a stated count: the stack, the reserved words, "Do Not Use" (R148, R184, N9). -/
theorem minorCycles_eq_none_iff (i : Instr) (s t : State) : minorCycles i s t = none ↔
    i.isStack = true ∨ i.isReserved = true ∨ i.hasUndefinedRotate = true := by
  cases i with
  | opr1 cla cll cma cml rot iac =>
    rw [minorCycles_opr1]
    simp [Instr.isStack, Instr.isReserved, Instr.hasUndefinedRotate]
  | ppc1 | ppc2 | pac1 | pac2 | rtn1 | rtn2 | pop1 | pop2 | rsp1 | rsp2 | lsp1 | lsp2 =>
    exact iff_of_true rfl (.inl rfl)
  | reserved6200 | reserved6210 | reserved6220 | reserved6230 | reserved6240 | reserved6250 | reserved6260
  | reserved6270 | reserved6204 | reserved6254 | reserved6264 | reserved6274 | reserved6247 | reserved6257
  | reserved6267 | reserved6277 => exact iff_of_true rfl (.inr (.inl rfl))
  | _ => exact iff_of_false nofun nofun

theorem minorCycles_bounds {i : Instr} {s t : State} {n : Nat} (h : minorCycles i s t = some n) :
    4 ≤ n ∧ n ≤ 16 := by
  cases i with
  | and ind p a | tad ind p a | dca ind p a | jms ind p a =>
    obtain rfl := Option.some.inj h
    have hcol := s.addressCycles_bounds ind p a (direct := 7) (pointer := 10) (auto := 12) (by decide) (by decide)
    omega
  | isz ind p a =>
    obtain rfl := Option.some.inj h
    have hcol := s.addressCycles_bounds ind p a (direct := 9) (pointer := 12) (auto := 14) (by decide) (by decide)
    split <;> omega
  | jmp ind p a =>
    obtain rfl := Option.some.inj h
    have hcol := s.addressCycles_bounds ind p a (direct := 4) (pointer := 7) (auto := 9) (by decide) (by decide)
    omega
  | opr1 cla cll cma cml rot iac =>
    rw [minorCycles_opr1] at h
    split at h
    · cases h
    · obtain rfl := Option.some.inj h
      split <;> decide
  | opr2 cla sma sza snl sense osr hlt =>
    obtain rfl := Option.some.inj h
    split <;> decide
  | iot device op =>
    obtain rfl := Option.some.inj h
    split <;> decide
  | ppc1 | ppc2 | pac1 | pac2 | rtn1 | rtn2 | pop1 | pop2 | rsp1 | rsp2 | lsp1 | lsp2 => cases h
  | reserved6200 | reserved6210 | reserved6220 | reserved6230 | reserved6240 | reserved6250 | reserved6260
  | reserved6270 | reserved6204 | reserved6254 | reserved6264 | reserved6274 | reserved6247 | reserved6257
  | reserved6267 | reserved6277 => cases h
  | _ =>
    obtain rfl := Option.some.inj h
    decide

/-- Settles O59: which rows have a count, and the least and the greatest of the counts. -/
theorem statedMinorCycles : Obligations.StatedMinorCycles :=
  fun i s t => ⟨minorCycles_eq_none_iff i s t, fun _ => minorCycles_bounds⟩

/-- Settles O60: the memory reference rows by their column, every other listed word by its row. -/
theorem minorCycleTable : Obligations.MinorCycleTable := by
  intro s t i p a x device ia col
  have hcol : ∀ direct pointer auto, s.addressCycles i p a direct pointer auto = col direct pointer auto :=
    s.addressCycles_eq i p a
  refine ⟨?reference, ?isz, congrArg some (hcol 4 7 9), ?five, ?six, ?seven, ?eight, ?nine, rfl⟩
  case reference =>
    simp only [List.forall_mem_cons, List.not_mem_nil, false_implies, implies_true, and_true, ← hcol]
    exact ⟨rfl, rfl, rfl, rfl⟩
  case isz =>
    rw [← hcol]
    rfl
  case five | six | seven | eight | nine =>
    intro j hj
    fin_cases hj <;> rfl

end Sys2Proof.Machine
end
